-- ==== Sys2Proof/Word.lean ====
section
/-! DEFINITION. The widths the block moves values in (spec/00_scope.md R11: every value is an unsigned
number of a stated width; spec/20_memory.md R57: a register is 16 or 32 bits wide, a data byte 8). -/

namespace Sys2Proof

/-- A register value or a command word. A 16-bit register's value is held zero-extended: its bits 31:16 are 0
(R57; `State.answer` cuts every answer to the register's width). -/
abbrev Word := BitVec 32

/-- One byte of a write or read buffer (R50, R53). -/
abbrev Byte := BitVec 8

end Sys2Proof
end

