-- ==== Sys2Proof/Config.lean ====
section
/-! DEFINITION. What an implementation fixes (spec/00_scope.md R9, R10) and the free values.

`Params` is the shape of the parameters: one field for every value of R9 and R10, the presets and the register map
`REGMAP` among them; the two widths R9 fixes are types (a 7-bit address, R75; an 8-bit data byte, R53). Every operation of the machine that uses one takes a `Params` as an argument (R35: "A model takes them as
arguments and no step changes them"); `Machine.execAt` and `Machine.stepAt` are the whole machine at any `Params`. The
values the spec takes are `Machine.params` and `Machine.regMapCH32V003` (Sys2Proof/Machine/Params.lean), under
Machine/ so that one number can be mended without touching anything else. -/

namespace Sys2Proof

/-- R10 `DUTY_BIT_STD`: the duty bit when the block is not in fast mode (R105, D9). -/
inductive DutyBitStd where
  | fromConfig
  | zero
  deriving DecidableEq, Repr

/-- R51, R80: what the register map gives a register, its byte address and its width `REGW` in bits. Widths up to 32 are
meant: a value is held in a `Word`. -/
structure RegEntry where
  addr  : Nat
  width : Nat
  deriving DecidableEq, Repr

/-- R10 `REGMAP`: addresses, widths and bit positions (R80-R87). A mask is the bits its fields name (`regBit`, `lowBits`,
Sys2Proof/Machine/RegMap.lean). The place of the data byte is no field: R53 and R57 fix DATAR bits 7:0 for every map. -/
structure RegMap where
  -- R80: the registers the sequencer reaches (R27)
  ctlr1     : RegEntry
  ctlr2     : RegEntry
  ckcfgr    : RegEntry
  datar     : RegEntry
  star1     : RegEntry
  star2     : RegEntry
  pcfr1     : RegEntry
  apb1pcenr : RegEntry
  apb1prstr : RegEntry
  apb2pcenr : RegEntry
  -- R80: the two the sequencer never accesses
  oaddr1    : RegEntry
  oaddr2    : RegEntry
  -- R81: bits of CTLR1
  pe        : Nat
  start     : Nat
  stop      : Nat
  ack       : Nat
  swrst     : Nat
  -- R82: CTLR2.FREQ, its lowest bit and its width
  freqLo    : Nat
  freqBits  : Nat
  -- R83: CKCFGR, the lowest bit of CCR (its width is `CCR_BITS`) and the bits DUTY and F/S
  ccrLo     : Nat
  duty      : Nat
  fs        : Nat
  -- R85: flags of STAR1
  sb        : Nat
  addr      : Nat
  btf       : Nat
  rxne      : Nat
  txe       : Nat
  berr      : Nat
  arlo      : Nat
  af        : Nat
  ovr       : Nat
  -- R86: flags of STAR2
  msl       : Nat
  busy      : Nat
  tra       : Nat
  -- R87: system register fields; PCFR1's bits for `remap[0]` and `remap[1]`
  i2c1en    : Nat
  i2c1rst   : Nat
  afioen    : Nat
  remap0    : Nat
  remap1    : Nat
  deriving DecidableEq, Repr

/-- The named values of R9 (fixed by the source) and of R10 (the spec's own choices). -/
structure Params where
  pclkMinHz       : Nat
  pclkMaxHz       : Nat
  stdMaxHz        : Nat
  divStd          : Nat
  divFast33       : Nat
  divFast36       : Nat
  /-- R9 presets, each with duty 33 (R79) -/
  presetSmHz      : Nat
  presetFmHz      : Nat
  presetFmpHz     : Nat
  speedMinHz      : Nat
  speedMaxHz      : Nat
  freqUnitHz      : Nat
  ccrBits         : Nat
  dutyBitStd      : DutyBitStd
  readAddrWaitTxe : Bool
  /-- R10 `POLL_BUDGET`: `none` is the unbounded poll. The spec gives no effect to a bound (log entry 18). -/
  pollBudget      : Option Nat
  /-- `none`: unbounded (any finite length). -/
  maxXferLen      : Option Nat
  regMap          : RegMap
  deriving DecidableEq, Repr

/-- FREE VALUE (log entry 1). What the environment answers to the `k`-th register read once the answers written
out in `State.answers` are used up: any value, under no law (R33, U1). Applied to the counter `State.reads`. -/
opaque Config.envAnswer : Nat → Word

/-- FREE VALUE (log entry 12). The quotient of a division by zero in the resolver, applied to the dividend. R108 says
that none occurs: only a state that no run reaches (a latched speed of 0) asks for it. -/
opaque Config.quotientByZero : Nat → Word

end Sys2Proof
end

