-- ==== Sys2Proof/Machine/Params.lean ====
section
/-! DEFINITION. The values of the parameters (spec/00_scope.md R9: fixed by the source; R10: the values this spec
takes, 92_eei_decisions.md D7-D11, D14, D22, D23). -/

namespace Sys2Proof.Machine

/-- R80-R87: the register map the spec takes, the CH32V003 layout, which it marks as general knowledge (G1-G3; log entry
13). R80 gives OADDR1 and OADDR2 no width: 16 is that of the block's other registers (log entry 13). -/
def regMapCH32V003 : RegMap where
  ctlr1     := ⟨0x40005400, 16⟩
  ctlr2     := ⟨0x40005404, 16⟩
  oaddr1    := ⟨0x40005408, 16⟩
  oaddr2    := ⟨0x4000540C, 16⟩
  datar     := ⟨0x40005410, 16⟩
  star1     := ⟨0x40005414, 16⟩
  star2     := ⟨0x40005418, 16⟩
  ckcfgr    := ⟨0x4000541C, 16⟩
  pcfr1     := ⟨0x40010004, 32⟩
  apb1prstr := ⟨0x40021010, 32⟩
  apb2pcenr := ⟨0x40021018, 32⟩
  apb1pcenr := ⟨0x4002101C, 32⟩
  pe        := 0
  start     := 8
  stop      := 9
  ack       := 10
  swrst     := 15
  freqLo    := 0
  freqBits  := 6
  ccrLo     := 0
  duty      := 14
  fs        := 15
  sb        := 0
  addr      := 1
  btf       := 2
  rxne      := 6
  txe       := 7
  berr      := 8
  arlo      := 9
  af        := 10
  ovr       := 11
  msl       := 0
  busy      := 1
  tra       := 2
  i2c1en    := 21
  i2c1rst   := 21
  afioen    := 0
  remap0    := 1
  remap1    := 22

/-- R9 and R10. -/
def params : Params where
  pclkMinHz       := 2000000
  pclkMaxHz       := 36000000
  stdMaxHz        := 100000
  divStd          := 2
  divFast33       := 3
  divFast36       := 25
  presetSmHz      := 100000
  presetFmHz      := 400000
  presetFmpHz     := 1000000
  speedMinHz      := 1
  speedMaxHz      := 1000000
  freqUnitHz      := 1000000
  ccrBits         := 12
  dutyBitStd      := .fromConfig
  readAddrWaitTxe := true
  pollBudget      := none
  maxXferLen      := none
  regMap          := regMapCH32V003

end Sys2Proof.Machine
end

