-- ==== Sys2Proof/Syntax.lean ====
section
/-! DEFINITION. The commands as syntax: the six rows of spec/opcode_table.json, the operand record that travels
beside the command word, and the assembler's statements (spec/30_encoding.md R70-R79). -/

namespace Sys2Proof

/-- The duty selection `D` (R72): 0 is LowDuty33 and 1 is LowDuty36. The names are labels only (R14, C3). -/
inductive Duty where
  | lowDuty33
  | lowDuty36
  deriving DecidableEq, Repr

/-- The opcode a command word carries in `CW[3:0]` (R71); the content of register `op` (R21). -/
inductive Opcode where
  | resolve
  | openEngine
  | closeEngine
  | write
  | read
  | writeRead
  deriving DecidableEq, Repr

/-- One constructor per row of spec/opcode_table.json, holding the fields of the command word (R72-R75). The operands
PCLK, SPEED, WDATA and RBUF are no part of the word: they travel in the operand record (R70, `Operands`). -/
inductive Instr where
  /-- RESOLVE (R72, R106) -/
  | resolve (duty : Duty)
  /-- OPEN (R73, R122) -/
  | openEngine (remap : BitVec 2) (duty : Duty)
  /-- CLOSE (R74, R126) -/
  | closeEngine
  /-- WRITE (R75, R155) -/
  | write (a7 : BitVec 7)
  /-- READ (R75, R160) -/
  | read (a7 : BitVec 7)
  /-- WRITE_READ (R75, R170) -/
  | writeRead (a7 : BitVec 7)
  deriving DecidableEq, Repr

/-- The opcode of a command. -/
def Instr.opcode : Instr → Opcode
  | .resolve _ => .resolve
  | .openEngine _ _ => .openEngine
  | .closeEngine => .closeEngine
  | .write _ => .write
  | .read _ => .read
  | .writeRead _ => .writeRead

/-- The operand record of the command port (R70, R72-R75). Its shape is fixed by the opcode (R78): RESOLVE and OPEN
take `pclk` and `speed`, WRITE takes `wdata`, READ takes `rbuf`, WRITE_READ takes both lists, CLOSE takes none.
The fields an opcode does not take are ignored (log entry 5). -/
structure Operands where
  pclk  : Word
  speed : Word
  /-- WDATA, of length n -/
  wdata : List Byte
  /-- RBUF, of length m, with the host's contents -/
  rbuf  : List Byte
  deriving DecidableEq, Repr

/-- The operand record of a command that takes none. -/
def Operands.none : Operands := ⟨0, 0, [], []⟩

/-- What the host issues: a 32-bit command word with its operand record (R70). -/
structure Command where
  word     : Word
  operands : Operands
  deriving DecidableEq, Repr

/-- Why a command is refused at the port (R184), in the order of the checks (R185). -/
inductive RefuseReason where
  | rfOpcode
  | rfRsvd
  | rfState
  | rfSpeed
  | rfLen
  deriving DecidableEq, Repr

/-- The source's three presets under the spec's names (R9, R79): 100 kHz, 400 kHz and 1 MHz, each with duty 33. -/
inductive Preset where
  | sm
  | fm
  | fmp
  deriving DecidableEq, Repr

/-- The statements of the assembler (R79), pseudo-instructions included; `assemble` (Decode.lean) gives each its
command. -/
inductive Asm where
  | resolve (pclk speed : Word) (duty : Duty)
  | openEngine (pclk speed : Word) (duty : Duty) (remap : BitVec 2)
  | closeEngine
  | write (a7 : BitVec 7) (bytes : List Byte)
  /-- `read <a7>, <m>`: m zero bytes -/
  | readCount (a7 : BitVec 7) (m : Nat)
  /-- `read <a7>, [<initial RBUF bytes>]` -/
  | readInto (a7 : BitVec 7) (rbuf : List Byte)
  | writeRead (a7 : BitVec 7) (bytes : List Byte) (m : Nat)
  /-- `resolve.sm`, `resolve.fm`, `resolve.fmp` -/
  | resolvePreset (p : Preset) (pclk : Word)
  /-- `open.sm`, `open.fm`, `open.fmp` -/
  | openPreset (p : Preset) (pclk : Word) (remap : BitVec 2)
  deriving DecidableEq, Repr

end Sys2Proof
end

