-- ==== Sys2Proof/WellFormed.lean ====
section
/-! DEFINITION. When an operand record is well formed for its command: the checks of spec/60_exceptions.md R184 that
look at the operands alone (RF_SPEED and RF_LEN). The fields of the command word need no check: their types admit
exactly the values the encoding has (a 7-bit address, a 2-bit remap, a 1-bit duty). The parameters are arguments
(R35). -/

namespace Sys2Proof

/-- R107: RESOLVE and OPEN admit a SPEED in `[SPEED_MIN_HZ, SPEED_MAX_HZ]` and no other. -/
def speedOk (p : Params) (i : Instr) (o : Operands) : Bool :=
  match i with
  | .resolve _ | .openEngine _ _ => p.speedMinHz ≤ o.speed.toNat && o.speed.toNat ≤ p.speedMaxHz
  | .closeEngine | .write _ | .read _ | .writeRead _ => true

/-- A byte list is no longer than `MAX_XFER_LEN` (R10; unbounded under `none`). -/
def withinXferLen (p : Params) (bytes : List Byte) : Bool :=
  match p.maxXferLen with
  | none => true
  | some k => bytes.length ≤ k

/-- R155, R160, R170: WRITE checks n, READ checks m, WRITE_READ both. -/
def lenOk (p : Params) (i : Instr) (o : Operands) : Bool :=
  match i with
  | .write _ => withinXferLen p o.wdata
  | .read _ => withinXferLen p o.rbuf
  | .writeRead _ => withinXferLen p o.wdata && withinXferLen p o.rbuf
  | .resolve _ | .openEngine _ _ | .closeEngine => true

/-- The operand record `o` is one that command `i` admits. -/
def WellFormed (p : Params) (i : Instr) (o : Operands) : Bool :=
  speedOk p i o && lenOk p i o

end Sys2Proof
end

