-- ==== Sys2Proof/Decode.lean ====
section
/-! DEFINITION. From a command word to a command and back (spec/30_encoding.md R71-R78), and the assembler (R79).
`decode` is total on the 32-bit words and refuses by the reason R77 names; `encode` writes the bit patterns of
R72-R75. -/

namespace Sys2Proof

/-- R72: the bit of a duty selection. -/
def Duty.bit : Duty → BitVec 1
  | .lowDuty33 => 0#1
  | .lowDuty36 => 1#1

/-- R72: the duty selection of a bit. -/
def dutyOfBit (b : BitVec 1) : Duty := if b = 0#1 then .lowDuty33 else .lowDuty36

/-- The field `v[lo + len - 1 : lo]` of a command word (R11). -/
def cwField (w : Word) (lo len : Nat) : BitVec len := w.extractLsb' lo len

/-- R71: the opcode map; `none` for 0000 and 0111 to 1111. -/
def opcodeOf (w : Word) : Option Opcode :=
  match (cwField w 0 4).toNat with
  | 1 => some .resolve
  | 2 => some .openEngine
  | 3 => some .closeEngine
  | 4 => some .write
  | 5 => some .read
  | 6 => some .writeRead
  | _ => none

/-- The lowest reserved bit of the opcode's format: `CW[31:k]` must be 0 (R72 F_TIM, R73 F_OPEN, R74 F_NONE,
R75 F_XFER). -/
def reservedFrom : Opcode → Nat
  | .resolve => 5
  | .openEngine => 7
  | .closeEngine => 4
  | .write | .read | .writeRead => 11

/-- The command an opcode names, its fields taken from the word (R76). -/
def instrOf (w : Word) : Opcode → Instr
  | .resolve => .resolve (dutyOfBit (cwField w 4 1))
  | .openEngine => .openEngine (cwField w 5 2) (dutyOfBit (cwField w 4 1))
  | .closeEngine => .closeEngine
  | .write => .write (cwField w 4 7)
  | .read => .read (cwField w 4 7)
  | .writeRead => .writeRead (cwField w 4 7)

/-- R77: a reserved opcode is refused with RF_OPCODE, a reserved bit that is set with RF_RSVD, in that order (R185). -/
def decode (w : Word) : Except RefuseReason Instr :=
  match opcodeOf w with
  | none => .error .rfOpcode
  | some op => if w >>> reservedFrom op = 0#32 then .ok (instrOf w op) else .error .rfRsvd

/-- The words of the commands, each the bit pattern of its rule, most significant bit first (R72-R75). -/
def encode : Instr → Word
  | .resolve d => 0#27 ++ d.bit ++ 0b0001#4
  | .openEngine r d => 0#25 ++ r ++ d.bit ++ 0b0010#4
  | .closeEngine => 0#28 ++ 0b0011#4
  | .write a => 0#21 ++ a ++ 0b0100#4
  | .read a => 0#21 ++ a ++ 0b0101#4
  | .writeRead a => 0#21 ++ a ++ 0b0110#4

/-- One row of spec/opcode_table.json: a word `w` is the row's when `w & mask = pattern`. -/
structure TableRow where
  mnemonic : String
  mask     : Word
  pattern  : Word
  deriving DecidableEq, Repr

/-- spec/opcode_table.json. -/
def opcodeTable : List TableRow :=
  [⟨"RESOLVE",    0xFFFFFFEF#32, 0x00000001#32⟩,
   ⟨"OPEN",       0xFFFFFF8F#32, 0x00000002#32⟩,
   ⟨"CLOSE",      0xFFFFFFFF#32, 0x00000003#32⟩,
   ⟨"WRITE",      0xFFFFF80F#32, 0x00000004#32⟩,
   ⟨"READ",       0xFFFFF80F#32, 0x00000005#32⟩,
   ⟨"WRITE_READ", 0xFFFFF80F#32, 0x00000006#32⟩]

/-- The row of the table that stands for a command. -/
def Opcode.mnemonic : Opcode → String
  | .resolve => "RESOLVE"
  | .openEngine => "OPEN"
  | .closeEngine => "CLOSE"
  | .write => "WRITE"
  | .read => "READ"
  | .writeRead => "WRITE_READ"

/-- What `decode` reads from a row's word: every row has 32 bits (R78), and the bits above `nbits` are 0. A wider
row is no command word. -/
def decodeTableWord (nbits w : Nat) : Option Instr :=
  if nbits ≤ 32 then
    match decode (BitVec.ofNat 32 (w % 2 ^ nbits)) with
    | .ok i => some i
    | .error _ => none
  else none

/-- R79: the target speed of a preset, in Hz (R9). -/
def Preset.speed (ps : Preset) (cfg : Params := Machine.params) : Word :=
  match ps with
  | .sm => BitVec.ofNat 32 cfg.presetSmHz
  | .fm => BitVec.ofNat 32 cfg.presetFmHz
  | .fmp => BitVec.ofNat 32 cfg.presetFmpHz

/-- R79: `m` zero bytes. -/
def zeroBytes (m : Nat) : List Byte := List.replicate m 0#8

/-- R79: the command an assembler statement stands for. -/
def assemble (x : Asm) (cfg : Params := Machine.params) : Command :=
  match x with
  | .resolve p v d => ⟨encode (.resolve d), p, v, [], []⟩
  | .openEngine p v d r => ⟨encode (.openEngine r d), p, v, [], []⟩
  | .closeEngine => ⟨encode .closeEngine, Operands.none⟩
  | .write a bs => ⟨encode (.write a), 0, 0, bs, []⟩
  | .readCount a m => ⟨encode (.read a), 0, 0, [], zeroBytes m⟩
  | .readInto a buf => ⟨encode (.read a), 0, 0, [], buf⟩
  | .writeRead a bs m => ⟨encode (.writeRead a), 0, 0, bs, zeroBytes m⟩
  | .resolvePreset ps p => ⟨encode (.resolve .lowDuty33), p, ps.speed cfg, [], []⟩
  | .openPreset ps p r => ⟨encode (.openEngine r .lowDuty33), p, ps.speed cfg, [], []⟩

end Sys2Proof
end

