-- ==== Sys2Proof/Machine/State.lean ====
section
/-! DEFINITION. The whole state of the block, its environment as seen through the register interface, and its host
(spec/10_state.md R20-R34; spec/20_memory.md R50-R52), as plain data; why a step can stop; and the state at reset. -/

namespace Sys2Proof.Machine

/-- The environment registers the sequencer reaches: exactly these (R27). -/
inductive Reg where
  | ctlr1
  | ctlr2
  | ckcfgr
  | datar
  | star1
  | star2
  | pcfr1
  | apb1pcenr
  | apb1prstr
  | apb2pcenr
  deriving DecidableEq, Repr

/-- The phases of OPEN (R121). -/
inductive OpenPhase where
  | o1 | o2 | o3 | o4 | o5 | o6 | o7 | o8 | o9 | o10 | o11
  deriving DecidableEq, Repr

/-- The phases of WRITE (R22, R155). The spec's `W6T(i)` and `W6D(i)` are `w6t` and `w6d` with the index held in
register `i` (log entry 6). -/
inductive WritePhase where
  | w1 | w2 | w3 | w4 | w5 | w6t | w6d | w7 | w8 | w9
  deriving DecidableEq, Repr

/-- The phases of READ (R22, R160). The spec's `R6R(i)` and `R6D(i)` are `r6r` and `r6d` with the index in
register `i` (log entry 6). -/
inductive ReadPhase where
  | r1 | r2 | r3 | r4 | r5 | r6r | r6d | r7 | r8
  deriving DecidableEq, Repr

/-- The content of `pc` (R22), grouped by the command whose phase it is. -/
inductive Phase where
  | idle
  | s1
  | o (p : OpenPhase)
  | c1
  | w (p : WritePhase)
  | r (p : ReadPhase)
  deriving DecidableEq, Repr

/-- The result codes (R24, R181); the numbers are `ResultCode.bits`. The 3-bit codes 5 to 7 are never written, so
they have no name. -/
inductive ResultCode where
  | ok
  | busError
  | acknowledgeFailure
  | arbitrationLost
  | overrun
  deriving DecidableEq, Repr

/-- ResolvedTiming (R100): the content of register `timing` (R21). -/
structure Timing where
  div  : Word
  fs   : BitVec 1
  duty : BitVec 1
  deriving DecidableEq, Repr

/-- The result register `res` (R24). -/
structure ResultReg where
  done : Bool
  code : ResultCode
  div  : Word
  fs   : BitVec 1
  duty : BitVec 1
  deriving DecidableEq, Repr

/-- One event of the trace (R12, R15). -/
inductive Event where
  /-- `Rd(r, v)`: register r was read and answered v -/
  | rd (r : Reg) (v : Word)
  /-- `Wr(r, v)`: v was written to register r -/
  | wr (r : Reg) (v : Word)
  /-- `Hb(i, b)`: byte b was written to slot i of RBUF -/
  | hb (i : Nat) (b : Byte)
  deriving DecidableEq, Repr

/-- One answer of the environment to one register read (R33): a value of its choice, or the value that last crossed
the interface for the register that is read (`EnvRegs`). The second form is a short way to write a value (a
register that reads back what was written, as in D24); it adds no law, since the environment chooses the form too. -/
inductive Answer where
  | value (v : Word)
  | held
  deriving DecidableEq, Repr

/-- The environment's registers (R20, R27, R80), each with the value that last crossed the register interface: what the
sequencer last wrote to it or last read from it. A read does not have to answer that value (R33). -/
structure EnvRegs where
  ctlr1     : Word
  ctlr2     : Word
  ckcfgr    : Word
  datar     : Word
  star1     : Word
  star2     : Word
  pcfr1     : Word
  apb1pcenr : Word
  apb1prstr : Word
  apb2pcenr : Word
  /-- R80: the block has it; the sequencer never accesses it (`Reg` has no name for it) -/
  oaddr1    : Word
  /-- R80: as `oaddr1` -/
  oaddr2    : Word
  deriving DecidableEq, Repr

structure State where
  -- The sequencer's registers: exactly those of R21.
  /-- the sequencer owns the peripheral handle and the SCL and SDA pins (R26) -/
  owned    : Bool
  /-- the phase (R22) -/
  pc       : Phase
  /-- the opcode of the command being run; what it holds at IDLE is never read (R32, log entry 19) -/
  op       : Opcode
  /-- target address -/
  a7       : BitVec 7
  /-- the bytes to send: WBUF, captured at acceptance (R52); n is its length -/
  wdata    : List Byte
  /-- the number of bytes to receive -/
  m        : Nat
  /-- the index of the next data byte -/
  i        : Nat
  /-- the running WRITE is the first half of a WRITE_READ -/
  thenRead : Bool
  /-- the PCLK operand as given -/
  pclk     : Word
  /-- the target speed in Hz -/
  speed    : Word
  dutySel  : Duty
  remap    : BitVec 2
  /-- the ResolvedTiming of the last OPEN -/
  timing   : Timing
  /-- the result register (R24) -/
  res      : ResultReg
  /-- the sticky mark of a refused command (R184) -/
  refused  : Bool
  -- The host (R8, R52, R70).
  /-- RBUF: the host's read buffer, slot 0 first (R52) -/
  rbuf     : List Byte
  /-- the commands the host issues, one at a time, in this order; the head stands at the command port (R70) -/
  host     : List Command
  -- The environment (R8, R33).
  env      : EnvRegs
  /-- its answers to the coming register reads, the next one first; when they are used up, free values follow -/
  answers  : List Answer
  /-- how many register reads have been made: the model's counter for the free values (log entry 1) -/
  reads    : Nat
  -- Input and record.
  /-- the level of the block's reset input at each coming step; once used up it is not asserted (R200) -/
  resetPin : List Bool
  /-- the events recorded so far, the oldest first (R15) -/
  trace    : List Event
  deriving DecidableEq, Repr

/-- Why a step can stop the machine. The spec has no fault (93_implementation_defined.md: "No behaviour of this block
is treated as `fault`"): each of these is raised only in states that no run from reset reaches (`State.Inv`,
Safety.lean) or under a parameter value the spec does not take, where the spec gives no effect. All are safe. -/
inductive Fault where
  /-- Raised by every meaning: `pc` is a phase of another command than the one that runs. Safe. -/
  | phaseMismatch
  /-- Raised by WRITE, READ and WRITE_READ in W6D and R6D: the index lies outside the buffer. Safe. -/
  | indexOutOfRange
  /-- Raised by every meaning asked to take a command when none stands at the port; `step` asks for none then. Safe. -/
  | noCommand
  /-- Raised by the poll phases of WRITE, READ and WRITE_READ under a `POLL_BUDGET` other than the unbounded one, to which
  the spec gives no effect (R149, D14; log entry 18): never by `step`, whose parameters have it unbounded. Safe. -/
  | boundedPoll
  deriving DecidableEq, Repr

/-- Why the model could refuse to run an instruction. (A command refused AT THE PORT, R184, is no refusal of the
model: it takes a next state.) -/
inductive Refusal where
  /-- Raised by `exec` for an instruction that has no meaning yet; no arm of `exec` raises it. Safe. -/
  | notModelled (mnemonic : String)
  deriving DecidableEq, Repr

/-- What one step answers. -/
abbrev StepOutcome := Host.Outcome State Fault Refusal

/-- Every environment register 0. The spec gives no value for them (R34): log entry 2. -/
def EnvRegs.zero : EnvRegs := ⟨0, 0, 0, 0, 0, 0, 0, 0, 0, 0, 0, 0⟩

/-- The state right after the block's power-on reset: the sequencer's registers as R32 and R200 say. The rest is
outside the block and has no reset value in the spec: no command is waiting, no answer is written out, nothing is
recorded, and the registers of the environment hold 0 (log entries 2, 3, 4). DESIGN CHOICE (log entry 19): `op` holds RESOLVE's
opcode, since R32 gives it no value and says that it is never read before a command latches it. -/
def State.reset : State where
  owned    := false
  pc       := .idle
  op       := .resolve
  a7       := 0
  wdata    := []
  m        := 0
  i        := 0
  thenRead := false
  pclk     := 0
  speed    := 0
  dutySel  := .lowDuty33
  remap    := 0
  timing   := ⟨0, 0, 0⟩
  res      := ⟨false, .ok, 0, 0, 0⟩
  refused  := false
  rbuf     := []
  host     := []
  env      := EnvRegs.zero
  answers  := []
  reads    := 0
  resetPin := []
  trace    := []

end Sys2Proof.Machine
end

