-- ==== Sys2Proof/Machine/RegMap.lean ====
section
/-! DEFINITION. What the register map gives the operations (spec/30_encoding.md R80-R87; spec/20_memory.md R57):
addresses, widths and masks, each computed from the map in the parameters. No rule but the masks depends on the map's
numbers. -/

namespace Sys2Proof.Machine

/-- R80: what the map says of a register the sequencer reaches. -/
def regEntry (m : RegMap) : Reg → RegEntry
  | .ctlr1     => m.ctlr1
  | .ctlr2     => m.ctlr2
  | .ckcfgr    => m.ckcfgr
  | .datar     => m.datar
  | .star1     => m.star1
  | .star2     => m.star2
  | .pcfr1     => m.pcfr1
  | .apb1pcenr => m.apb1pcenr
  | .apb1prstr => m.apb1prstr
  | .apb2pcenr => m.apb2pcenr

/-- R80: the byte address of a register. The sequencer names registers by identity (R51); an address serves only to
print a trace. -/
def regAddr (r : Reg) (cfg : Params := params) : Nat := (regEntry cfg.regMap r).addr

/-- R57, R80: `REGW(r)`. -/
def regWidth (r : Reg) (cfg : Params := params) : Nat := (regEntry cfg.regMap r).width

/-- Bit `k` of a register. -/
def regBit (k : Nat) : Word := 1#32 <<< k

/-- The low `n` bits. -/
def lowBits (n : Nat) : Word := BitVec.ofNat 32 (2 ^ n - 1)

/-- The low `REGW(r)` bits. -/
def widthMask (r : Reg) (cfg : Params := params) : Word := lowBits (regWidth r cfg)

/-! CTLR1 (R81) -/
def peMask    (cfg : Params := params) : Word := regBit cfg.regMap.pe
def startMask (cfg : Params := params) : Word := regBit cfg.regMap.start
def stopMask  (cfg : Params := params) : Word := regBit cfg.regMap.stop
def ackMask   (cfg : Params := params) : Word := regBit cfg.regMap.ack
def swrstMask (cfg : Params := params) : Word := regBit cfg.regMap.swrst

/-! CTLR2 (R82) and CKCFGR (R83, R121 step O9) -/
def freqMask (cfg : Params := params) : Word := lowBits cfg.regMap.freqBits <<< cfg.regMap.freqLo
/-- `CCR`: `CCR_BITS` bits (R10, R83). -/
def ccrMask (cfg : Params := params) : Word := lowBits cfg.ccrBits <<< cfg.regMap.ccrLo
def timingMask (cfg : Params := params) : Word :=
  regBit cfg.regMap.fs ||| regBit cfg.regMap.duty ||| ccrMask cfg

/-! STAR1 (R85) -/
def sbMask   (cfg : Params := params) : Word := regBit cfg.regMap.sb
def addrMask (cfg : Params := params) : Word := regBit cfg.regMap.addr
def btfMask  (cfg : Params := params) : Word := regBit cfg.regMap.btf
def rxneMask (cfg : Params := params) : Word := regBit cfg.regMap.rxne
def txeMask  (cfg : Params := params) : Word := regBit cfg.regMap.txe
def berrMask (cfg : Params := params) : Word := regBit cfg.regMap.berr
def arloMask (cfg : Params := params) : Word := regBit cfg.regMap.arlo
def afMask   (cfg : Params := params) : Word := regBit cfg.regMap.af
def ovrMask  (cfg : Params := params) : Word := regBit cfg.regMap.ovr

/-! STAR2 (R86) -/
def mslMask  (cfg : Params := params) : Word := regBit cfg.regMap.msl
def busyMask (cfg : Params := params) : Word := regBit cfg.regMap.busy
def traMask  (cfg : Params := params) : Word := regBit cfg.regMap.tra

/-! System registers (R87) -/
def i2c1enMask  (cfg : Params := params) : Word := regBit cfg.regMap.i2c1en
def i2c1rstMask (cfg : Params := params) : Word := regBit cfg.regMap.i2c1rst
def afioenMask  (cfg : Params := params) : Word := regBit cfg.regMap.afioen
def rmMask      (cfg : Params := params) : Word := regBit cfg.regMap.remap1 ||| regBit cfg.regMap.remap0

end Sys2Proof.Machine
end

