-- ==== Sys2Proof/Machine/Flags.lean ====
section
/-! DEFINITION. Every flag computation of the block: the wait predicates over a snapshot `(s1, s2)` of STAR1 and
STAR2 (spec/42_transactions.md R141-R147) and the error check's classification (R150), under the parameters given as
arguments. The block sets no flag (R29). -/

namespace Sys2Proof.Machine

/-- R13: the flag with mask `k` reads 1 in `v`. -/
def flagSet (v k : Word) : Bool := v &&& k != 0#32

/-- R141, at W1 and R1: `not BUSY`. -/
def pIdle (cfg : Params) (_s1 s2 : Word) : Bool := !flagSet s2 (busyMask cfg)

/-- R142, at W3 and R3: SB, BUSY, MSL. -/
def pMms (cfg : Params) (s1 s2 : Word) : Bool :=
  flagSet s1 (sbMask cfg) && flagSet s2 (busyMask cfg) && flagSet s2 (mslMask cfg)

/-- R143, at W5: ADDR, TxE, BUSY, MSL, TRA. -/
def pMtms (cfg : Params) (s1 s2 : Word) : Bool :=
  flagSet s1 (addrMask cfg) && flagSet s1 (txeMask cfg) &&
    flagSet s2 (busyMask cfg) && flagSet s2 (mslMask cfg) && flagSet s2 (traMask cfg)

/-- R144, at R5: ADDR, BUSY, MSL, and TxE too when `READ_ADDR_WAIT_TXE` is true. -/
def pMrms (cfg : Params) (s1 s2 : Word) : Bool :=
  flagSet s1 (addrMask cfg) && (!cfg.readAddrWaitTxe || flagSet s1 (txeMask cfg)) &&
    flagSet s2 (busyMask cfg) && flagSet s2 (mslMask cfg)

/-- R145, at W6T: TxE. -/
def pTxe (cfg : Params) (s1 _s2 : Word) : Bool := flagSet s1 (txeMask cfg)

/-- R146, at W7: BTF, TxE, BUSY, MSL, TRA. -/
def pBtf (cfg : Params) (s1 s2 : Word) : Bool :=
  flagSet s1 (btfMask cfg) && flagSet s1 (txeMask cfg) &&
    flagSet s2 (busyMask cfg) && flagSet s2 (mslMask cfg) && flagSet s2 (traMask cfg)

/-- R147, at R6R: RxNE, MSL, BUSY. -/
def pRxne (cfg : Params) (s1 s2 : Word) : Bool :=
  flagSet s1 (rxneMask cfg) && flagSet s2 (mslMask cfg) && flagSet s2 (busyMask cfg)

/-- R150, R183: the code of the first error flag set, in the order BERR, AF, ARLO, OVR. -/
def classify (s1 : Word) (cfg : Params := params) : ResultCode :=
  if flagSet s1 (berrMask cfg) then .busError
  else if flagSet s1 (afMask cfg) then .acknowledgeFailure
  else if flagSet s1 (arloMask cfg) then .arbitrationLost
  else if flagSet s1 (ovrMask cfg) then .overrun
  else .ok

/-- R24, R181: the number of a result code in the 3-bit field `res.code`. -/
def codeBits : ResultCode → BitVec 3
  | .ok => 0
  | .busError => 1
  | .acknowledgeFailure => 2
  | .arbitrationLost => 3
  | .overrun => 4

end Sys2Proof.Machine
end

