-- ==== Sys2Proof/Machine/Resolver.lean ====
section
/-! DEFINITION. The clock/timing resolver (spec/40_resolver.md R100-R110), the combinational part of the block. -/

namespace Sys2Proof.Machine

/-- R11: `clamp(v, lo, hi) = min(max(v, lo), hi)`. -/
def clamp (v lo hi : Nat) : Nat := min (max v lo) hi

/-- R101: the clamped clock `pclk_c`. -/
def clampedClock (p : Params) (pclk : Word) : Nat := clamp pclk.toNat p.pclkMinHz p.pclkMaxHz

/-- R102: fast mode exactly when the speed is above `STD_MAX_HZ`. -/
def fastMode (p : Params) (speed : Word) : Bool := p.stdMaxHz < speed.toNat

/-- R103: the factor of the speed in the denominator. -/
def divFactor (p : Params) (speed : Word) (d : Duty) : Nat :=
  match fastMode p speed, d with
  | false, _ => p.divStd
  | true, .lowDuty33 => p.divFast33
  | true, .lowDuty36 => p.divFast36

/-- R103, R104: the truncating quotient, its denominator formed exactly. A zero denominator, which R108 rules out on
admitted operands, gives a free value (log entry 12). -/
def divider (p : Params) (pclk speed : Word) (d : Duty) : Word :=
  if divFactor p speed d * speed.toNat = 0 then Config.quotientByZero (clampedClock p pclk)
  else BitVec.ofNat 32 (clampedClock p pclk / (divFactor p speed d * speed.toNat))

/-- R105: the duty bit. -/
def dutyBit (p : Params) (speed : Word) (d : Duty) : BitVec 1 :=
  match fastMode p speed, p.dutyBitStd with
  | true, _ => d.bit
  | false, .fromConfig => d.bit
  | false, .zero => 0#1

/-- R100: `Resolve(pclk, speed, dutySel)`. -/
def resolveTiming (p : Params) (pclk speed : Word) (d : Duty) : Timing where
  div  := divider p pclk speed d
  fs   := if fastMode p speed then 1#1 else 0#1
  duty := dutyBit p speed d

/-- R110: the clock-frequency field value `pclk_c / FREQ_UNIT_HZ`. -/
def freqValue (p : Params) (pclk : Word) : Nat := clampedClock p pclk / p.freqUnitHz

end Sys2Proof.Machine
end

