-- ==== Sys2Proof/Machine/Operands.lean ====
section
/-! DEFINITION. Every operand the commands assemble (spec/30_encoding.md R76, R84, R87, R88; spec/42_transactions.md
R148) and the refusal checks at the port (spec/60_exceptions.md R184, R185), under the parameters given as arguments. -/

namespace Sys2Proof.Machine

/-- R84: a byte zero-extended to DATAR's width. -/
def dataWord (b : Byte) : Word := b.setWidth 32

/-- R84: the byte a DATAR value carries, bits 7:0. -/
def dataByte (v : Word) : Byte := v.setWidth 8

/-- R53, R76: the address byte, the 7-bit address above the direction bit. -/
def addressByte (a7 : BitVec 7) (rw : BitVec 1) : Byte := a7 ++ rw

/-- R87: the value step O7 gives the two remap bits, each at its place in the register map:
`(remap[1] << 22) | (remap[0] << 1)` under the map the spec takes. -/
def remapField (r : BitVec 2) (cfg : Params := params) : Word :=
  (r.extractLsb' 1 1).setWidth 32 <<< cfg.regMap.remap1 ||| (r.extractLsb' 0 1).setWidth 32 <<< cfg.regMap.remap0

/-- R88, R110: the value step O8 gives CTLR2.FREQ, at the field's place in the register map. -/
def freqField (pclk : Word) (cfg : Params := params) : Word :=
  BitVec.ofNat 32 (freqValue cfg pclk) <<< cfg.regMap.freqLo

/-- R83, R88, R121: the value step O9 gives CKCFGR, each part at its place in the register map:
`(fs << 15) | (duty << 14) | div[CCR_BITS - 1 : 0]` under the map the spec takes. -/
def timingField (t : Timing) (cfg : Params := params) : Word :=
  t.fs.setWidth 32 <<< cfg.regMap.fs ||| t.duty.setWidth 32 <<< cfg.regMap.duty |||
    (t.div &&& lowBits cfg.ccrBits) <<< cfg.regMap.ccrLo

/-- R129: the ownership a command needs: OPEN needs `owned = 0`, CLOSE and the transactions need `owned = 1`,
RESOLVE needs neither. -/
def stateOk (i : Instr) (owned : Bool) : Bool :=
  match i with
  | .resolve _ => true
  | .openEngine _ _ => !owned
  | .closeEngine | .write _ | .read _ | .writeRead _ => owned

/-- R184, R185: why a decoded command is refused, if it is. -/
def refusalOf (i : Instr) (owned : Bool) (o : Operands) (cfg : Params := params) : Option RefuseReason :=
  if !stateOk i owned then some .rfState
  else if !speedOk cfg i o then some .rfSpeed
  else if !lenOk cfg i o then some .rfLen
  else none

/-- R184, R185: why a command at the port is refused, if it is: the checks of the word come first. -/
def portRefusal (c : Command) (owned : Bool) (cfg : Params := params) : Option RefuseReason :=
  match decode c.word with
  | .error reason => some reason
  | .ok i => refusalOf i owned c.operands cfg

/-- The command that runs, read back from the registers its acceptance wrote (R21: `op` and the latched fields). -/
def State.current (s : State) : Instr :=
  match s.op with
  | .resolve => .resolve s.dutySel
  | .openEngine => .openEngine s.remap s.dutySel
  | .closeEngine => .closeEngine
  | .write => .write s.a7
  | .read => .read s.a7
  | .writeRead => .writeRead s.a7

end Sys2Proof.Machine
end

