-- ==== Sys2Proof/Machine/Ops.lean ====
section
/-! DEFINITION. The operations every meaning is made of: the micro-operations of spec/00_scope.md R12 over the
registers and the host's buffers, posting a result, refusing a command at the port (the block's only exception,
spec/60_exceptions.md R184), the block's reset (spec/70_reset_and_hazards.md R200) and the shape of a step. What depends
on a parameter takes the parameters as its last argument (R35), by default those the spec takes. -/

namespace Sys2Proof.Machine

/-! ### The environment's registers -/

/-- The value held for a register. -/
def EnvRegs.get (e : EnvRegs) : Reg → Word
  | .ctlr1 => e.ctlr1
  | .ctlr2 => e.ctlr2
  | .ckcfgr => e.ckcfgr
  | .datar => e.datar
  | .star1 => e.star1
  | .star2 => e.star2
  | .pcfr1 => e.pcfr1
  | .apb1pcenr => e.apb1pcenr
  | .apb1prstr => e.apb1prstr
  | .apb2pcenr => e.apb2pcenr

/-- The registers with `v` held for `r`. -/
def EnvRegs.set (e : EnvRegs) (r : Reg) (v : Word) : EnvRegs :=
  match r with
  | .ctlr1 => { e with ctlr1 := v }
  | .ctlr2 => { e with ctlr2 := v }
  | .ckcfgr => { e with ckcfgr := v }
  | .datar => { e with datar := v }
  | .star1 => { e with star1 := v }
  | .star2 => { e with star2 := v }
  | .pcfr1 => { e with pcfr1 := v }
  | .apb1pcenr => { e with apb1pcenr := v }
  | .apb1prstr => { e with apb1prstr := v }
  | .apb2pcenr => { e with apb2pcenr := v }

/-! ### Register access -/

/-- R33: what the environment answers if `r` is read now, `REGW(r)` bits wide: the next answer written out, or the
free value of this read. -/
def State.answer (s : State) (r : Reg) (cfg : Params := params) : Word :=
  (match s.answers with
   | [] => Config.envAnswer s.reads
   | .value v :: _ => v
   | .held :: _ => s.env.get r) &&& widthMask r cfg

/-- R12 `RegRead(r)`: the state after the read whose value is `s.answer r`. -/
def State.readReg (s : State) (r : Reg) (cfg : Params := params) : State :=
  { s with
    env := s.env.set r (s.answer r cfg)
    answers := s.answers.tail
    reads := s.reads + 1
    trace := s.trace ++ [.rd r (s.answer r cfg)] }

/-- R12 `RegWrite(r, v)`. -/
def State.writeReg (s : State) (r : Reg) (v : Word) : State :=
  { s with env := s.env.set r v, trace := s.trace ++ [.wr r v] }

/-- A read of `r` and then a write of `f` of the value read: one micro-operation, two events (R12, R56, R62). -/
def State.modifyReg (s : State) (r : Reg) (f : Word → Word) (cfg : Params := params) : State :=
  (s.readReg r cfg).writeReg r (f (s.answer r cfg))

/-- R12 `SetBits(r, k)`. -/
def State.setBits (s : State) (r : Reg) (k : Word) (cfg : Params := params) : State :=
  s.modifyReg r (fun v => v ||| k) cfg

/-- R12 `ClearBits(r, k)`. -/
def State.clearBits (s : State) (r : Reg) (k : Word) (cfg : Params := params) : State :=
  s.modifyReg r (fun v => v &&& ~~~k) cfg

/-- R12 `WriteField(r, k, f)`. -/
def State.writeField (s : State) (r : Reg) (k f : Word) (cfg : Params := params) : State :=
  s.modifyReg r (fun v => (v &&& ~~~k) ||| (f &&& k)) cfg

/-! ### Polls (R140) -/

/-- The STAR1 value of a snapshot taken now. -/
def State.snap1 (s : State) (cfg : Params := params) : Word := s.answer .star1 cfg

/-- The STAR2 value of a snapshot taken now: STAR2 is read right after STAR1. -/
def State.snap2 (s : State) (cfg : Params := params) : Word := (s.readReg .star1 cfg).answer .star2 cfg

/-- The state after a snapshot: STAR1 read, then STAR2. -/
def State.afterSnap (s : State) (cfg : Params := params) : State := (s.readReg .star1 cfg).readReg .star2 cfg

/-- One iteration of `Poll(P)`: on a snapshot that satisfies `P` the sequencer moves on by `go`; on another `pc` is
unchanged, so the next step polls again (R140, R149: no error flag). That is the unbounded poll; to a `POLL_BUDGET` the
spec gives no effect (R149: "no iteration budget", D14: no Timeout result; log entry 18). -/
def State.poll (s : State) (P : Word → Word → Bool) (go : State → State) (cfg : Params := params) : StepOutcome :=
  match cfg.pollBudget with
  | none => .next (if P (s.snap1 cfg) (s.snap2 cfg) then go (s.afterSnap cfg) else s.afterSnap cfg)
  | some _ => .fault .boundedPoll

/-! ### The host's buffers -/

/-- R12 `MemRead(WBUF, k)`; nothing for an index the buffer does not have. -/
def State.wbufByte (s : State) (k : Nat) : Option Byte := s.wdata[k]?

/-- R12 `MemWrite(RBUF, k, b)`. -/
def State.storeByte (s : State) (k : Nat) (b : Byte) : State :=
  { s with rbuf := s.rbuf.set k b, trace := s.trace ++ [.hb k b] }

/-! ### The sequencer -/

/-- R12 `pc <- phase`. -/
def State.goto (s : State) (p : Phase) : State := { s with pc := p }

/-- `i <- k`. -/
def State.setIndex (s : State) (k : Nat) : State := { s with i := k }

/-- R12, R24 `post(res.done <- 1, res.code <- c)`: `div`, `fs` and `duty` stay, and the sequencer returns to IDLE. -/
def State.post (s : State) (c : ResultCode) : State :=
  { s with res := { s.res with done := true, code := c }, pc := .idle }

/-- R106: RESOLVE's post, which writes the whole result register. -/
def State.postTiming (s : State) (t : Timing) : State :=
  { s with res := ⟨true, .ok, t.div, t.fs, t.duty⟩, pc := .idle }

/-- R150 `CheckError`: the one STAR1 read that no STAR2 read follows (R151); its result is
`classify (s.answer .star1)`. -/
def State.afterCheck (s : State) (cfg : Params := params) : State := s.readReg .star1 cfg

/-! ### The command port -/

/-- The command at the port is taken: the host's next one moves up (R70). -/
def State.takeCommand (s : State) : State := { s with host := s.host.tail }

/-- R184: a command refused at the port. The sticky mark is set and the command is gone; nothing else changes. -/
def State.refuse (s : State) : State := { s with refused := true, host := s.host.tail }

/-- R70, R184: the port takes the command that stands at it. With a reason to refuse it the command is refused;
otherwise `accept` latches its operand record. -/
def State.atPort (s : State) (i : Instr) (accept : Operands → State → State) (cfg : Params := params) : StepOutcome :=
  match s.host with
  | [] => .fault .noCommand
  | c :: _ =>
    match refusalOf i s.owned c.operands cfg with
    | some _ => .next s.refuse
    | none => .next (accept c.operands s.takeCommand)

/-! ### The block's reset -/

/-- R200: every sequencer register takes its reset value (R32). The environment, the host and its buffer, and the
record are outside the block and stay (log entry 4). -/
def State.blockReset (s : State) : State :=
  { State.reset with
    rbuf := s.rbuf
    host := s.host
    env := s.env
    answers := s.answers
    reads := s.reads
    resetPin := s.resetPin
    trace := s.trace }

/-- The reset input moves on to its next level. -/
def State.clockPin (s : State) : State := { s with resetPin := s.resetPin.tail }

/-- The reset input is asserted at this step. -/
def State.resetAsserted (s : State) : Bool := s.resetPin.head? == some true

/-! ### The shape of a step -/

/-- A step with the reset input not asserted, `ex` giving the commands their meanings. At IDLE the command at the port is
decoded and taken or refused (R70, R77); with none there the block waits (R22, R201). In any other phase the running
command makes its next micro-operation (R56). -/
def State.runBy (ex : Instr → State → StepOutcome) (s : State) : StepOutcome :=
  match s.pc with
  | .idle =>
    match s.host with
    | [] => .next s
    | c :: _ =>
      match decode c.word with
      | .error _ => .next s.refuse
      | .ok i => ex i s
  | .s1 | .o _ | .c1 | .w _ | .r _ => ex s.current s

/-- One step, `ex` giving the commands their meanings: the block's reset if its input is asserted (R200), else
`State.runBy`. -/
def stepBy (ex : Instr → State → StepOutcome) (s : State) : StepOutcome :=
  if s.resetAsserted then .next s.clockPin.blockReset else s.clockPin.runBy ex

end Sys2Proof.Machine
end

