-- ==== Sys2Proof/Machine/Lifecycle.lean ====
section
/-! DEFINITION. OPEN and CLOSE (spec/41_lifecycle.md R120-R129). -/

namespace Sys2Proof.Machine

/-- R122 `accept`: the sequencer takes the three resources. -/
def acceptOpen (r : BitVec 2) (d : Duty) (o : Operands) (s : State) : State :=
  { s with
    owned := true
    op := .openEngine
    pclk := o.pclk
    speed := o.speed
    dutySel := d
    remap := r
    pc := .o .o1 }

/-- Step O9's first half: `timing <- Resolve(pclk, speed, dutySel)` (R121). -/
def State.latchTiming (s : State) (cfg : Params := params) : State :=
  { s with timing := resolveTiming cfg s.pclk s.speed s.dutySel }

/-- R121: the eleven phases of OPEN, one micro-operation each; none polls. -/
def openPhase (p : OpenPhase) (s : State) (cfg : Params := params) : State :=
  match p with
  | .o1 => (s.setBits .apb1pcenr (i2c1enMask cfg) cfg).goto (.o .o2)
  | .o2 => (s.setBits .apb1prstr (i2c1rstMask cfg) cfg).goto (.o .o3)
  | .o3 => (s.clearBits .apb1prstr (i2c1rstMask cfg) cfg).goto (.o .o4)
  | .o4 => (s.setBits .apb2pcenr (afioenMask cfg) cfg).goto (.o .o5)
  | .o5 => (s.setBits .ctlr1 (swrstMask cfg) cfg).goto (.o .o6)
  | .o6 => (s.clearBits .ctlr1 (swrstMask cfg) cfg).goto (.o .o7)
  | .o7 => (s.writeField .pcfr1 (rmMask cfg) (remapField s.remap cfg) cfg).goto (.o .o8)
  | .o8 => (s.writeField .ctlr2 (freqMask cfg) (freqField s.pclk cfg) cfg).goto (.o .o9)
  | .o9 =>
    ((s.latchTiming cfg).writeField .ckcfgr (timingMask cfg) (timingField (s.latchTiming cfg).timing cfg) cfg).goto
      (.o .o10)
  | .o10 => (s.setBits .ctlr1 (peMask cfg) cfg).goto (.o .o11)
  | .o11 => (s.setBits .ctlr1 (ackMask cfg) cfg).post .ok

/-- OPEN (R122) under the parameters `cfg`: accepted at IDLE with `owned = 0`, then the phases of R121. -/
def execOpenEngineAt (cfg : Params) (r : BitVec 2) (d : Duty) (s : State) : StepOutcome :=
  match s.pc with
  | .idle => s.atPort (.openEngine r d) (acceptOpen r d) cfg
  | .o p => .next (openPhase p s cfg)
  | .s1 | .c1 | .w _ | .r _ => .fault .phaseMismatch

/-- OPEN under the parameters the spec takes. -/
def execOpenEngine (r : BitVec 2) (d : Duty) (s : State) : StepOutcome := execOpenEngineAt params r d s

/-- R126 `accept`. -/
def acceptClose (_ : Operands) (s : State) : State := { s with op := .closeEngine, pc := .c1 }

/-- The three resources return to the host (R126, R26). -/
def State.release (s : State) : State := { s with owned := false }

/-- Phase C1: PE is cleared, the resources are given up and OK is posted (R126). -/
def closePhase (s : State) (cfg : Params := params) : State := (s.clearBits .ctlr1 (peMask cfg) cfg).release.post .ok

/-- CLOSE (R126) under the parameters `cfg`: accepted at IDLE with `owned = 1`, then C1. -/
def execCloseEngineAt (cfg : Params) (s : State) : StepOutcome :=
  match s.pc with
  | .idle => s.atPort .closeEngine acceptClose cfg
  | .c1 => .next (closePhase s cfg)
  | .s1 | .o _ | .w _ | .r _ => .fault .phaseMismatch

/-- CLOSE under the parameters the spec takes. -/
def execCloseEngine (s : State) : StepOutcome := execCloseEngineAt params s

end Sys2Proof.Machine
end

