-- ==== Sys2Proof/Machine/Resolve.lean ====
section
/-! DEFINITION. RESOLVE (spec/40_resolver.md R106). -/

namespace Sys2Proof.Machine

/-- R106 `accept`. -/
def acceptResolve (d : Duty) (o : Operands) (s : State) : State :=
  { s with pclk := o.pclk, speed := o.speed, dutySel := d, op := .resolve, pc := .s1 }

/-- RESOLVE (R106) under the parameters `cfg`: accepted at IDLE, whether or not `owned` is set; phase S1 computes and
posts. -/
def execResolveAt (cfg : Params) (d : Duty) (s : State) : StepOutcome :=
  match s.pc with
  | .idle => s.atPort (.resolve d) (acceptResolve d) cfg
  | .s1 => .next (s.postTiming (resolveTiming cfg s.pclk s.speed s.dutySel))
  | .o _ | .c1 | .w _ | .r _ => .fault .phaseMismatch

/-- RESOLVE under the parameters the spec takes. -/
def execResolve (d : Duty) (s : State) : StepOutcome := execResolveAt params d s

end Sys2Proof.Machine
end

