-- ==== Sys2Proof/Machine/Transactions.lean ====
section
/-! DEFINITION. WRITE, READ and WRITE_READ (spec/42_transactions.md R140-R176). The phases of a WRITE and of a READ
are stated once and shared by WRITE_READ (R170). -/

namespace Sys2Proof.Machine

/-- W5 passed: `i <- 0; pc <- (n > 0 ? W6T(0) : W7)` (R155). -/
def State.startWriteData (s : State) : State :=
  (s.setIndex 0).goto (if 0 < s.wdata.length then .w .w6t else .w .w7)

/-- W6D: a data byte goes to DATAR; `i <- i + 1; pc <- (i < n ? W6T(i) : W7)` (R155). -/
def State.sendByte (s : State) (b : Byte) : State :=
  ((s.writeReg .datar (dataWord b)).setIndex (s.i + 1)).goto
    (if s.i + 1 < s.wdata.length then .w .w6t else .w .w7)

/-- W9: CheckError; on OK in the first half of a WRITE_READ the read half starts (`thenRead <- 0`), otherwise the code
is posted (R155, R170, R172). -/
def State.endWrite (s : State) (cfg : Params := params) : State :=
  if s.thenRead = true ∧ classify (s.answer .star1 cfg) cfg = .ok then
    { s.afterCheck cfg with thenRead := false, pc := .r .r1 }
  else (s.afterCheck cfg).post (classify (s.answer .star1 cfg) cfg)

/-- R155: the phases of a WRITE. -/
def writePhase (p : WritePhase) (s : State) (cfg : Params := params) : StepOutcome :=
  match p with
  | .w1 => s.poll (pIdle cfg) (fun t => t.goto (.w .w2)) cfg
  | .w2 => .next ((s.setBits .ctlr1 (startMask cfg) cfg).goto (.w .w3))
  | .w3 => s.poll (pMms cfg) (fun t => t.goto (.w .w4)) cfg
  | .w4 => .next ((s.writeReg .datar (dataWord (addressByte s.a7 0#1))).goto (.w .w5))
  | .w5 => s.poll (pMtms cfg) State.startWriteData cfg
  | .w6t => s.poll (pTxe cfg) (fun t => t.goto (.w .w6d)) cfg
  | .w6d =>
    match s.wbufByte s.i with
    | some b => .next (s.sendByte b)
    | none => .fault .indexOutOfRange
  | .w7 => s.poll (pBtf cfg) (fun t => t.goto (.w .w8)) cfg
  | .w8 => .next ((s.setBits .ctlr1 (stopMask cfg) cfg).goto (.w .w9))
  | .w9 => .next (s.endWrite cfg)

/-- R5 passed: `i <- 0; pc <- (m > 0 ? R6R(0) : R7)` (R160). -/
def State.startReadData (s : State) : State :=
  (s.setIndex 0).goto (if 0 < s.m then .r .r6r else .r .r7)

/-- R6D: a byte is read from DATAR into RBUF; `i <- i + 1; pc <- (i < m ? R6R(i) : R7)` (R160). -/
def State.takeByte (s : State) (cfg : Params := params) : State :=
  (((s.readReg .datar cfg).storeByte s.i (dataByte (s.answer .datar cfg))).setIndex (s.i + 1)).goto
    (if s.i + 1 < s.m then .r .r6r else .r .r7)

/-- R160: the phases of a READ. -/
def readPhase (p : ReadPhase) (s : State) (cfg : Params := params) : StepOutcome :=
  match p with
  | .r1 => s.poll (pIdle cfg) (fun t => t.goto (.r .r2)) cfg
  | .r2 => .next ((s.setBits .ctlr1 (startMask cfg) cfg).goto (.r .r3))
  | .r3 => s.poll (pMms cfg) (fun t => t.goto (.r .r4)) cfg
  | .r4 => .next ((s.writeReg .datar (dataWord (addressByte s.a7 1#1))).goto (.r .r5))
  | .r5 => s.poll (pMrms cfg) State.startReadData cfg
  | .r6r => s.poll (pRxne cfg) (fun t => t.goto (.r .r6d)) cfg
  | .r6d => if s.i < s.rbuf.length then .next (s.takeByte cfg) else .fault .indexOutOfRange
  | .r7 => .next ((s.setBits .ctlr1 (stopMask cfg) cfg).goto (.r .r8))
  | .r8 => .next ((s.afterCheck cfg).post (classify (s.answer .star1 cfg) cfg))

/-- R155 `accept`. -/
def acceptWrite (a : BitVec 7) (o : Operands) (s : State) : State :=
  { s with op := .write, a7 := a, wdata := o.wdata, thenRead := false, pc := .w .w1 }

/-- WRITE (R155) under the parameters `cfg`. -/
def execWriteAt (cfg : Params) (a : BitVec 7) (s : State) : StepOutcome :=
  match s.pc with
  | .idle => s.atPort (.write a) (acceptWrite a) cfg
  | .w p => writePhase p s cfg
  | .s1 | .o _ | .c1 | .r _ => .fault .phaseMismatch

/-- WRITE under the parameters the spec takes. -/
def execWrite (a : BitVec 7) (s : State) : StepOutcome := execWriteAt params a s

/-- R160 `accept`; RBUF with the host's contents is the buffer the bytes go to (R52). -/
def acceptRead (a : BitVec 7) (o : Operands) (s : State) : State :=
  { s with
    op := .read
    a7 := a
    m := o.rbuf.length
    rbuf := o.rbuf
    thenRead := false
    pc := .r .r1 }

/-- READ (R160) under the parameters `cfg`. -/
def execReadAt (cfg : Params) (a : BitVec 7) (s : State) : StepOutcome :=
  match s.pc with
  | .idle => s.atPort (.read a) (acceptRead a) cfg
  | .r p => readPhase p s cfg
  | .s1 | .o _ | .c1 | .w _ => .fault .phaseMismatch

/-- READ under the parameters the spec takes. -/
def execRead (a : BitVec 7) (s : State) : StepOutcome := execReadAt params a s

/-- R170 `accept`. -/
def acceptWriteRead (a : BitVec 7) (o : Operands) (s : State) : State :=
  { s with
    op := .writeRead
    a7 := a
    wdata := o.wdata
    m := o.rbuf.length
    rbuf := o.rbuf
    thenRead := true
    pc := .w .w1 }

/-- WRITE_READ (R170) under the parameters `cfg`: the phases of a WRITE, and then those of a READ if the WRITE gave OK. -/
def execWriteReadAt (cfg : Params) (a : BitVec 7) (s : State) : StepOutcome :=
  match s.pc with
  | .idle => s.atPort (.writeRead a) (acceptWriteRead a) cfg
  | .w p => writePhase p s cfg
  | .r p => readPhase p s cfg
  | .s1 | .o _ | .c1 => .fault .phaseMismatch

/-- WRITE_READ under the parameters the spec takes. -/
def execWriteRead (a : BitVec 7) (s : State) : StepOutcome := execWriteReadAt params a s

end Sys2Proof.Machine
end

