-- ==== Sys2Proof/Machine/Dispatch.lean ====
section
/-! DEFINITION. One arm per command: what the sequencer does in one step while that command stands at the port (pc =
IDLE) or runs (its phases). -/

namespace Sys2Proof.Machine

def exec (i : Instr) (s : State) : Host.Outcome State Fault Refusal :=
  match i with
  | .resolve d => Sys2Proof.Machine.execResolve d s
  | .openEngine r d => Sys2Proof.Machine.execOpenEngine r d s
  | .closeEngine => Sys2Proof.Machine.execCloseEngine s
  | .write a => Sys2Proof.Machine.execWrite a s
  | .read a => Sys2Proof.Machine.execRead a s
  | .writeRead a => Sys2Proof.Machine.execWriteRead a s

end Sys2Proof.Machine
end

