-- ==== Sys2Proof/Machine/Step.lean ====
section
/-! DEFINITION. One step of the block (spec/10_state.md R23, spec/20_memory.md R56, spec/30_encoding.md R70). -/

namespace Sys2Proof.Machine

/-- One step (`stepBy`, Ops.lean), under the parameters the spec takes. -/
def step (s : State) : Host.Outcome State Fault Refusal := stepBy exec s

/-- R35: the commands' meanings under the parameters `cfg`; at `params` they are those of `exec`. -/
def execAt (cfg : Params) (i : Instr) (s : State) : StepOutcome :=
  match i with
  | .resolve d => execResolveAt cfg d s
  | .openEngine r d => execOpenEngineAt cfg r d s
  | .closeEngine => execCloseEngineAt cfg s
  | .write a => execWriteAt cfg a s
  | .read a => execReadAt cfg a s
  | .writeRead a => execWriteReadAt cfg a s

/-- R35: one step under the parameters `cfg`, none of which it changes. -/
def stepAt (cfg : Params) (s : State) : StepOutcome := stepBy (execAt cfg) s

/-- `s` with the command word `w` standing at the command port of an idle block whose reset input is not asserted at
this step, so that the next step takes it. The operand record that stands at the port stays; with no command there
it is the record of zeros and empty lists (log entry 10). -/
def State.withFetchWord (s : State) (nbits w : Nat) : State :=
  { s with
    pc := .idle
    host := ⟨BitVec.ofNat 32 (w % 2 ^ nbits), (s.host.head?.map Command.operands).getD Operands.none⟩ :: s.host.tail
    resetPin := if s.resetAsserted then false :: s.resetPin.tail else s.resetPin }

end Sys2Proof.Machine
end

