-- ==== Sys2Proof/Safety.lean ====
section
/-! DEFINITION. The terms the claims are stated in: who holds the resources and what the host sees, the invariant of
the reachable states, the transition table, the pairing of status reads, and runs written out by the environment's
answers. Nothing here is part of the machine: `step` uses none of it. -/

namespace Sys2Proof.Machine

/-! ### Ownership and the host's view -/

/-- The three tokens of R26. -/
inductive Resource where
  | peripheralHandle
  | sclPin
  | sdaPin
  deriving DecidableEq, Repr

/-- Who can hold them (R26). -/
inductive Holder where
  | sequencer
  | host
  deriving DecidableEq, Repr

/-- R26: the resources belong to the sequencer exactly while `owned = 1`. -/
def State.holder (s : State) (_ : Resource) : Holder := if s.owned then .sequencer else .host

/-- What a completed command returns to the host: the result register and, from a READ or a WRITE_READ, the read buffer
(R24, R52). -/
structure HostView where
  res  : ResultReg
  rbuf : Option (List Byte)
  deriving DecidableEq, Repr

/-- R60, R190: the host sees what the last completed command returned, and only while no command runs. DEDUCED (log entry
24): before any command has completed since reset it sees nothing, so a READ that the block's reset abandons shows no
part of its buffer. -/
def State.hostSees (s : State) : Option HostView :=
  if s.pc = .idle ∧ s.res.done = true then
    some ⟨s.res, if s.op = .read ∨ s.op = .writeRead then some s.rbuf else none⟩
  else none

/-- The code the last step of a command posts: that of CheckError's STAR1 read in W9 and R8, OK in the commands that make
no check (R106, R121, R126, R155, R160). -/
def postedCode (s : State) : ResultCode :=
  match s.pc with
  | .w .w9 | .r .r8 => classify (s.answer .star1)
  | _ => .ok

/-- The result register the last step of a command leaves: only RESOLVE writes `div`, `fs` and `duty` (R24, R106). -/
def postedResult (s : State) : ResultReg :=
  if s.pc = .s1 then
    let t := resolveTiming params s.pclk s.speed s.dutySel
    ⟨true, .ok, t.div, t.fs, t.duty⟩
  else ⟨true, postedCode s, s.res.div, s.res.fs, s.res.duty⟩

/-! ### The invariant -/

/-- A latched SPEED is one R107 admits. -/
def State.speedInRange (s : State) : Prop := 1 ≤ s.speed.toNat ∧ s.speed.toNat ≤ 1000000

/-- The index argument of a WRITE phase is one R22 gives it; after the data it is n (R155). -/
def State.writeIndexOk (s : State) : WritePhase → Prop
  | .w1 | .w2 | .w3 | .w4 | .w5 => True
  | .w6t | .w6d => s.i < s.wdata.length
  | .w7 | .w8 | .w9 => s.i = s.wdata.length

/-- The index argument of a READ phase is one R22 gives it; after the data it is m (R160). -/
def State.readIndexOk (s : State) : ReadPhase → Prop
  | .r1 | .r2 | .r3 | .r4 | .r5 => True
  | .r6r | .r6d => s.i < s.m
  | .r7 | .r8 => s.i = s.m

/-- The running command is the one whose phase `pc` is, and the registers it reads are as its acceptance left them. -/
def State.phaseOk (s : State) : Prop :=
  match s.pc with
  | .idle => True
  | .s1 => s.op = .resolve ∧ s.speedInRange
  | .o _ => s.op = .openEngine ∧ s.owned = true ∧ s.speedInRange
  | .c1 => s.op = .closeEngine ∧ s.owned = true
  | .w p =>
    s.owned = true ∧ s.writeIndexOk p ∧
      ((s.op = .write ∧ s.thenRead = false) ∨
       (s.op = .writeRead ∧ s.thenRead = true ∧ s.m = s.rbuf.length))
  | .r p =>
    s.owned = true ∧ s.readIndexOk p ∧ s.thenRead = false ∧ s.m = s.rbuf.length ∧
      (s.op = .read ∨ s.op = .writeRead)

/-- A value fits the width of a register (R57). -/
def fits (r : Reg) (v : Word) : Prop := v &&& widthMask r = v

/-- An event carries a value of its register's width (R33, R57). -/
def Event.fitsWidth : Event → Prop
  | .rd r v => fits r v
  | .wr r v => fits r v
  | .hb _ _ => True

/-- Every register the environment holds and every recorded value has its register's width, and a posted result is
there before any code but OK is (R24). -/
def State.dataOk (s : State) : Prop :=
  (∀ r, fits r (s.env.get r)) ∧ (∀ e ∈ s.trace, e.fitsWidth) ∧ (s.res.done = false → s.res.code = .ok)

/-- The invariant of the reachable states. -/
def State.Inv (s : State) : Prop := s.phaseOk ∧ s.dataOk

/-! ### The transition table -/

/-- The first phase of a command (R106, R122, R126, R155, R160, R170). -/
def firstPhase : Opcode → Phase
  | .resolve => .s1
  | .openEngine => .o .o1
  | .closeEngine => .c1
  | .write | .writeRead => .w .w1
  | .read => .r .r1

/-- The step from `s` to `t` accepts the command at the port, whose opcode is among `ops` (R21, R70): it passes the checks
of R184, and `t` stands at its first phase. -/
def acceptedIn (s t : State) (ops : List Opcode) : Prop :=
  s.pc = .idle ∧ ∃ c i, s.host.head? = some c ∧ decode c.word = .ok i ∧ refusalOf i s.owned c.operands = none ∧
    i.opcode ∈ ops ∧ t.op = i.opcode ∧ t.pc = firstPhase i.opcode

/-- The next `pc` of a state whose reset input is not asserted: R175 for the transactions, R121 for OPEN, R106 for
RESOLVE, R126 for CLOSE, R184 for a refusal, and IDLE while no command is there (R22); under the parameters the spec
takes. -/
def nextPhase (s : State) : Phase :=
  match s.pc with
  | .idle =>
    match s.host with
    | [] => .idle
    | c :: _ =>
      match decode c.word with
      | .error _ => .idle
      | .ok i => if refusalOf i s.owned c.operands = none then firstPhase i.opcode else .idle
  | .s1 => .idle
  | .o .o1 => .o .o2
  | .o .o2 => .o .o3
  | .o .o3 => .o .o4
  | .o .o4 => .o .o5
  | .o .o5 => .o .o6
  | .o .o6 => .o .o7
  | .o .o7 => .o .o8
  | .o .o8 => .o .o9
  | .o .o9 => .o .o10
  | .o .o10 => .o .o11
  | .o .o11 => .idle
  | .c1 => .idle
  | .w .w1 => if pIdle params s.snap1 s.snap2 then .w .w2 else .w .w1
  | .w .w2 => .w .w3
  | .w .w3 => if pMms params s.snap1 s.snap2 then .w .w4 else .w .w3
  | .w .w4 => .w .w5
  | .w .w5 => if pMtms params s.snap1 s.snap2 then (if s.wdata = [] then .w .w7 else .w .w6t) else .w .w5
  | .w .w6t => if pTxe params s.snap1 s.snap2 then .w .w6d else .w .w6t
  | .w .w6d => if s.i + 1 = s.wdata.length then .w .w7 else .w .w6t
  | .w .w7 => if pBtf params s.snap1 s.snap2 then .w .w8 else .w .w7
  | .w .w8 => .w .w9
  | .w .w9 => if s.thenRead ∧ classify (s.answer .star1) = .ok then .r .r1 else .idle
  | .r .r1 => if pIdle params s.snap1 s.snap2 then .r .r2 else .r .r1
  | .r .r2 => .r .r3
  | .r .r3 => if pMms params s.snap1 s.snap2 then .r .r4 else .r .r3
  | .r .r4 => .r .r5
  | .r .r5 => if pMrms params s.snap1 s.snap2 then (if s.m = 0 then .r .r7 else .r .r6r) else .r .r5
  | .r .r6r => if pRxne params s.snap1 s.snap2 then .r .r6d else .r .r6r
  | .r .r6d => if s.i + 1 = s.m then .r .r7 else .r .r6r
  | .r .r7 => .r .r8
  | .r .r8 => .idle

/-- The predicate of a phase that polls (R22). -/
def pollOf : Phase → Option (Word → Word → Bool)
  | .w .w1 | .r .r1 => some (pIdle params)
  | .w .w3 | .r .r3 => some (pMms params)
  | .w .w5 => some (pMtms params)
  | .w .w6t => some (pTxe params)
  | .w .w7 => some (pBtf params)
  | .r .r5 => some (pMrms params)
  | .r .r6r => some (pRxne params)
  | _ => none

/-! ### Traces -/

/-- R140, R210: every read of STAR2 comes right after a read of STAR1. The flag says whether the event before the list is
a read of STAR1. -/
def pairedFrom : Bool → List Event → Bool
  | _, [] => true
  | afterStar1, .rd .star2 _ :: es => afterStar1 && pairedFrom false es
  | _, .rd .star1 _ :: es => pairedFrom true es
  | _, _ :: es => pairedFrom false es

/-- A trace that pairs its status reads. -/
def pairedReads (es : List Event) : Bool := pairedFrom false es

/-- The event is a register write. -/
def Event.isWr : Event → Bool
  | .wr _ _ => true
  | .rd _ _ | .hb _ _ => false

/-- The event is a read of DATAR. -/
def Event.isDataRd : Event → Bool
  | .rd .datar _ => true
  | _ => false

/-- The register writes of a trace, in order. -/
def writesIn (es : List Event) : List Event := es.filter Event.isWr

/-- The reads of DATAR of a trace, in order. -/
def dataReadsIn (es : List Event) : List Event := es.filter Event.isDataRd

/-- The writes of a WRITE (R159): START on what CTLR1 read, the address byte, the bytes in order, STOP on what CTLR1 read. -/
def writeShape (a7 : BitVec 7) (bytes : List Byte) (v2 v8 : Word) : List Event :=
  [.wr .ctlr1 (v2 ||| 0x0100#32), .wr .datar ((a7 ++ 0#1).setWidth 32)] ++
    bytes.map (fun b => .wr .datar (b.setWidth 32)) ++ [.wr .ctlr1 (v8 ||| 0x0200#32)]

/-- The writes of a READ (R163): START, the address byte with the read bit, STOP. -/
def readShape (a7 : BitVec 7) (v2 v7 : Word) : List Event :=
  [.wr .ctlr1 (v2 ||| 0x0100#32), .wr .datar ((a7 ++ 1#1).setWidth 32), .wr .ctlr1 (v7 ||| 0x0200#32)]

/-! ### States after one micro-operation, written out -/

/-- `s` after a read of `r` and a write of `w` to it, with `pc` at `p` (R12, R56). -/
def State.afterRmw (s : State) (r : Reg) (w : Word) (p : Phase) : State :=
  { s with
    env := s.env.set r w
    answers := s.answers.tail
    reads := s.reads + 1
    trace := s.trace ++ [.rd r (s.answer r), .wr r w]
    pc := p }

/-- `s` after one iteration of a poll, with `pc` at `p` and index `k` (R140). -/
def State.afterPoll (s : State) (p : Phase) (k : Nat) : State :=
  { s with
    env := (s.env.set .star1 s.snap1).set .star2 s.snap2
    answers := s.answers.tail.tail
    reads := s.reads + 2
    trace := s.trace ++ [.rd .star1 s.snap1, .rd .star2 s.snap2]
    i := k
    pc := p }

/-- `s` after the error check, with `pc` at `p` (R150, R151). -/
def State.afterStar1 (s : State) (p : Phase) : State :=
  { s with
    env := s.env.set .star1 (s.answer .star1)
    answers := s.answers.tail
    reads := s.reads + 1
    trace := s.trace ++ [.rd .star1 (s.answer .star1)]
    pc := p }

/-! ### Runs written out by the environment's answers -/

/-- `k` steps of the block. -/
def runFor (k : Nat) (s : State) : StepOutcome := Host.Core.run Sys2Proof.core k s

/-- The 16-bit answer `v`. -/
def half (v : BitVec 16) : Answer := .value (v.setWidth 32)

/-- One snapshot's answers. -/
structure Snap where
  s1 : BitVec 16
  s2 : BitVec 16
  deriving DecidableEq, Repr

def Snap.answers (x : Snap) : List Answer := [half x.s1, half x.s2]
def Snap.events (x : Snap) : List Event := [.rd .star1 (x.s1.setWidth 32), .rd .star2 (x.s2.setWidth 32)]
def Snap.sat (x : Snap) (P : Word → Word → Bool) : Bool := P (x.s1.setWidth 32) (x.s2.setWidth 32)

/-- The answers of one poll that exits: the iterations that fail, and then the one that passes. -/
structure PollScript where
  fails : List Snap
  pass  : Snap
  deriving DecidableEq, Repr

def PollScript.answers (x : PollScript) : List Answer := x.fails.flatMap Snap.answers ++ x.pass.answers
def PollScript.events (x : PollScript) : List Event := x.fails.flatMap Snap.events ++ x.pass.events
def PollScript.steps (x : PollScript) : Nat := x.fails.length + 1
/-- Every iteration but the last fails the predicate, and the last satisfies it. -/
def PollScript.exits (x : PollScript) (P : Word → Word → Bool) : Prop :=
  (∀ f ∈ x.fails, f.sat P = false) ∧ x.pass.sat P = true

/-- The answers of a WRITE that completes: its polls, what CTLR1 reads at W2 and W8, and what STAR1 reads at W9. -/
structure WriteScript where
  w1   : PollScript
  v2   : BitVec 16
  w3   : PollScript
  w5   : PollScript
  data : List PollScript
  w7   : PollScript
  v8   : BitVec 16
  e9   : BitVec 16
  deriving DecidableEq, Repr

def WriteScript.answers (x : WriteScript) : List Answer :=
  x.w1.answers ++ [half x.v2] ++ x.w3.answers ++ x.w5.answers ++ x.data.flatMap PollScript.answers ++
    x.w7.answers ++ [half x.v8, half x.e9]

/-- R140 to R146: every poll of a WRITE of `n` bytes exits. -/
def WriteScript.exits (x : WriteScript) (n : Nat) : Prop :=
  x.w1.exits (pIdle params) ∧ x.w3.exits (pMms params) ∧ x.w5.exits (pMtms params) ∧ x.data.length = n ∧
    (∀ d ∈ x.data, d.exits (pTxe params)) ∧ x.w7.exits (pBtf params)

/-- The steps from W1 to the post. -/
def WriteScript.steps (x : WriteScript) : Nat :=
  x.w1.steps + x.w3.steps + x.w5.steps + (x.data.map PollScript.steps).sum + x.data.length + x.w7.steps + 4

/-- The failed poll iterations. -/
def WriteScript.failed (x : WriteScript) : Nat :=
  x.w1.fails.length + x.w3.fails.length + x.w5.fails.length + (x.data.map (fun d => d.fails.length)).sum +
    x.w7.fails.length

/-- The events of the WRITE (R155, vector T-W1). -/
def WriteScript.events (x : WriteScript) (a7 : BitVec 7) (bytes : List Byte) : List Event :=
  x.w1.events ++
  [.rd .ctlr1 (x.v2.setWidth 32), .wr .ctlr1 (x.v2.setWidth 32 ||| 0x0100#32)] ++
  x.w3.events ++
  [.wr .datar ((a7 ++ 0#1).setWidth 32)] ++
  x.w5.events ++
  (x.data.zip bytes).flatMap (fun d => d.1.events ++ [.wr .datar (d.2.setWidth 32)]) ++
  x.w7.events ++
  [.rd .ctlr1 (x.v8.setWidth 32), .wr .ctlr1 (x.v8.setWidth 32 ||| 0x0200#32), .rd .star1 (x.e9.setWidth 32)]

/-- The answers of a READ that completes: its polls, what CTLR1 reads at R2 and R7, what DATAR reads for each byte, and
what STAR1 reads at R8. -/
structure ReadScript where
  r1   : PollScript
  v2   : BitVec 16
  r3   : PollScript
  r5   : PollScript
  data : List (PollScript × BitVec 16)
  v7   : BitVec 16
  e8   : BitVec 16
  deriving DecidableEq, Repr

def ReadScript.answers (x : ReadScript) : List Answer :=
  x.r1.answers ++ [half x.v2] ++ x.r3.answers ++ x.r5.answers ++
    x.data.flatMap (fun d => d.1.answers ++ [half d.2]) ++ [half x.v7, half x.e8]

/-- R140 to R147: every poll of a READ of `m` bytes exits (`READ_ADDR_WAIT_TXE` true, R144, log entry 14). -/
def ReadScript.exits (x : ReadScript) (m : Nat) : Prop :=
  x.r1.exits (pIdle params) ∧ x.r3.exits (pMms params) ∧ x.r5.exits (pMrms params) ∧ x.data.length = m ∧
    (∀ d ∈ x.data, d.1.exits (pRxne params))

/-- The steps from R1 to the post. -/
def ReadScript.steps (x : ReadScript) : Nat :=
  x.r1.steps + x.r3.steps + x.r5.steps + (x.data.map (fun d => d.1.steps)).sum + x.data.length + 4

/-- The failed poll iterations. -/
def ReadScript.failed (x : ReadScript) : Nat :=
  x.r1.fails.length + x.r3.fails.length + x.r5.fails.length + (x.data.map (fun d => d.1.fails.length)).sum

/-- The bytes read: bits 7:0 of what DATAR read, in order (R53, R84). -/
def ReadScript.bytes (x : ReadScript) : List Byte := x.data.map (fun d => d.2.setWidth 8)

/-- The events of the READ (R160, vector T-R1). -/
def ReadScript.events (x : ReadScript) (a7 : BitVec 7) : List Event :=
  x.r1.events ++
  [.rd .ctlr1 (x.v2.setWidth 32), .wr .ctlr1 (x.v2.setWidth 32 ||| 0x0100#32)] ++
  x.r3.events ++
  [.wr .datar ((a7 ++ 1#1).setWidth 32)] ++
  x.r5.events ++
  x.data.zipIdx.flatMap
    (fun d => d.1.1.events ++ [.rd .datar (d.1.2.setWidth 32), .hb d.2 (d.1.2.setWidth 8)]) ++
  [.rd .ctlr1 (x.v7.setWidth 32), .wr .ctlr1 (x.v7.setWidth 32 ||| 0x0200#32), .rd .star1 (x.e8.setWidth 32)]

end Sys2Proof.Machine
end

