-- ==== Sys2Proof/Certificates/Slice0/Obligations.lean ====
section
/-! DEFINITION. The statements for the provers. Each docstring names the rules of spec/ it formalises; where a clause
rests on a choice of the model, the docstring names the log entry. Bit numbers and masks are those of R81-R87: the
values the spec takes from general knowledge for its parameter REGMAP (log entry 13). Where no parameter is named, the
statement is about the values the spec takes (R10, log entry 14). A rule that the spec itself marks as derived is
named as such. -/

open Sys2Proof Sys2Proof.Machine

/-! ### Encoding -/

/-- R72-R76, R78: decoding and encoding agree both ways: every command, with every value of its fields, is read back
from its word, and no other word decodes to it. -/
def Obligations.DecodeAndEncodeAgree : Prop :=
  ∀ (w : Word) (i : Instr), decode w = .ok i ↔ encode i = w

/-- R71 and spec/opcode_table.json: a word matches a row's mask and pattern exactly when it decodes to that row's
command. -/
def Obligations.DecodeFollowsTheOpcodeTable : Prop :=
  ∀ row ∈ opcodeTable, ∀ w : Word,
    w &&& row.mask = row.pattern ↔ ∃ i, decode w = .ok i ∧ i.opcode.mnemonic = row.mnemonic

/-- R77: the reserved opcodes are refused with RF_OPCODE, a valid opcode with a reserved bit set with RF_RSVD, and a
word so refused has no effect but the sticky mark. That the refused command is gone from the port (`host := rest`) is
the model's choice, log entries 8 (DESIGN CHOICE) and 17 (DEDUCED). -/
def Obligations.ReservedWordsAreRefused : Prop :=
  (∀ w : Word,
    let op := w.toNat % 16
    ((op = 0 ∨ 7 ≤ op) → decode w = .error .rfOpcode) ∧
    (op = 1 → 2 ^ 5 ≤ w.toNat → decode w = .error .rfRsvd) ∧
    (op = 2 → 2 ^ 7 ≤ w.toNat → decode w = .error .rfRsvd) ∧
    (op = 3 → 2 ^ 4 ≤ w.toNat → decode w = .error .rfRsvd) ∧
    (4 ≤ op → op ≤ 6 → 2 ^ 11 ≤ w.toNat → decode w = .error .rfRsvd)) ∧
  (∀ (s : State) (c : Command) (rest : List Command) (reason : RefuseReason),
    s.resetAsserted = false → s.pc = .idle → s.host = c :: rest → decode c.word = .error reason →
    step s = .next { s with refused := true, host := rest, resetPin := s.resetPin.tail })

/-- Words written out from the patterns of R72-R75 (the command words of vectors V11, T-O2, T-C1, T-W1, T-R3 and
T-WR1). -/
def Obligations.WordsOfTheSpecDecode : Prop :=
  decode 0x00000011#32 = .ok (.resolve .lowDuty36) ∧
  decode 0x00000062#32 = .ok (.openEngine 3#2 .lowDuty33) ∧
  decode 0x00000003#32 = .ok .closeEngine ∧
  decode 0x00000504#32 = .ok (.write 0x50#7) ∧
  decode 0x00000485#32 = .ok (.read 0x48#7) ∧
  decode 0x00000686#32 = .ok (.writeRead 0x68#7)

/-- R79: each preset's pseudo-instructions are the full forms at 100 kHz, 400 kHz and 1 MHz with duty 33. -/
def Obligations.PresetsExpand : Prop :=
  ∀ (pclk : Word) (r : BitVec 2) (ps : Preset),
    let hz : Word := match ps with | .sm => 100000 | .fm => 400000 | .fmp => 1000000
    assemble (.openPreset ps pclk r) = assemble (.openEngine pclk hz .lowDuty33 r) ∧
    assemble (.resolvePreset ps pclk) = assemble (.resolve pclk hz .lowDuty33)

/-! ### The resolver -/

/-- R101-R105, for both values of `DUTY_BIT_STD`: the clamp comes first, fast mode is strict above 100 kHz, the
divider is the floor of the quotient by the case's denominator, and the duty bit follows the selection except in
standard mode under `Zero`. -/
def Obligations.ResolvedTimingByCases : Prop :=
  ∀ (std : DutyBitStd) (pclk speed : Word) (d : Duty), speed ≠ 0 →
    let t := resolveTiming { params with dutyBitStd := std } pclk speed d
    let c := min (max pclk.toNat 2000000) 36000000
    let den := (if speed.toNat ≤ 100000 then 2 else match d with | .lowDuty33 => 3 | .lowDuty36 => 25) * speed.toNat
    (t.fs = 1#1 ↔ 100000 < speed.toNat) ∧
    (t.div.toNat * den ≤ c ∧ c < (t.div.toNat + 1) * den) ∧
    (t.fs = 1#1 ∨ std = .fromConfig → t.duty = d.bit) ∧
    (t.fs = 0#1 ∧ std = .zero → t.duty = 0#1)

/-- R108, which the spec marks as derived: on admitted speeds the denominator lies between 2 and 25_000_000, the
quotient is at most 18_000_000, and the 32-bit divider is the quotient of the unbounded naturals. -/
def Obligations.ResolverNeverOverflows : Prop :=
  ∀ (pclk speed : Word) (d : Duty), 1 ≤ speed.toNat → speed.toNat ≤ 1000000 →
    2 ≤ divFactor params speed d * speed.toNat ∧
    divFactor params speed d * speed.toNat ≤ 25000000 ∧
    clampedClock params pclk / (divFactor params speed d * speed.toNat) ≤ 18000000 ∧
    (resolveTiming params pclk speed d).div.toNat =
      clampedClock params pclk / (divFactor params speed d * speed.toNat)

/-- R110: the clock-frequency value is the clamped clock in MHz, truncated, between 2 and 36, and OPEN writes it to
CTLR2.FREQ at O8 (bits 5:0, R82), which holds all of it. -/
def Obligations.FrequencyField : Prop :=
  ∀ (r : BitVec 2) (d : Duty) (s : State), s.pc = .o .o8 →
    let f := min (max s.pclk.toNat 2000000) 36000000 / 1000000
    2 ≤ f ∧ f ≤ 36 ∧
    ∃ w : Word, w.toNat % 64 = f ∧ exec (.openEngine r d) s = .next (s.afterRmw .ctlr2 w (.o .o9))

/-! ### RESOLVE -/

/-- R106: RESOLVE is accepted at IDLE with an admitted speed, owned or not; S1 posts the whole result register. -/
def Obligations.ResolveAcceptedAndPosted : Prop :=
  ∀ (d : Duty) (s : State),
    (∀ (c : Command) (rest : List Command), s.pc = .idle → s.host = c :: rest →
      1 ≤ c.operands.speed.toNat → c.operands.speed.toNat ≤ 1000000 →
      exec (.resolve d) s = .next { s with
        host := rest, pclk := c.operands.pclk, speed := c.operands.speed, dutySel := d, op := .resolve,
        pc := .s1 }) ∧
    (s.pc = .s1 →
      exec (.resolve d) s = .next { s with
        res := { done := true, code := .ok,
                 div := (resolveTiming params s.pclk s.speed s.dutySel).div,
                 fs := (resolveTiming params s.pclk s.speed s.dutySel).fs,
                 duty := (resolveTiming params s.pclk s.speed s.dutySel).duty },
        pc := .idle })

/-- R106 as a run: a RESOLVE at the port of an idle block, in any ownership state, posts its result after two steps, and
changes nothing but the registers it latches, `op`, `res` and the port. That its acceptance is a step of its own, the
first of the two, is the model's choice, log entry 7 (DEDUCED). -/
def Obligations.ResolveCompletes : Prop :=
  ∀ (d : Duty) (o : Operands) (rest : List Command) (s : State),
    s.resetPin = [] → s.pc = .idle → s.host = ⟨encode (.resolve d), o⟩ :: rest →
    1 ≤ o.speed.toNat → o.speed.toNat ≤ 1000000 →
    runFor 2 s = .next { s with
      host := rest, pclk := o.pclk, speed := o.speed, dutySel := d, op := .resolve,
      res := { done := true, code := .ok,
               div := (resolveTiming params o.pclk o.speed d).div,
               fs := (resolveTiming params o.pclk o.speed d).fs,
               duty := (resolveTiming params o.pclk o.speed d).duty } }

/-! ### OPEN and CLOSE -/

/-- R120: OPEN is admitted at IDLE with `owned = 0` and takes the resources; with `owned = 1` it is refused; and in no
other phase is a command taken from the port. That a refused command is gone from the port is the model's choice, log
entries 8 and 17. -/
def Obligations.OpenOwnership : Prop :=
  ∀ (r : BitVec 2) (d : Duty) (s : State) (c : Command) (rest : List Command), s.host = c :: rest →
    (s.pc = .idle → s.owned = false → 1 ≤ c.operands.speed.toNat → c.operands.speed.toNat ≤ 1000000 →
      exec (.openEngine r d) s = .next { s with
        host := rest, owned := true, op := .openEngine, pclk := c.operands.pclk, speed := c.operands.speed,
        dutySel := d, remap := r, pc := .o .o1 }) ∧
    (s.pc = .idle → s.owned = true →
      refusalOf (.openEngine r d) s.owned c.operands = some .rfState ∧
      exec (.openEngine r d) s = .next { s with host := rest, refused := true }) ∧
    (∀ t, s.pc ≠ .idle → exec (.openEngine r d) s = .next t → t.host = s.host ∧ t.owned = s.owned)

/-- R121: the eleven micro-operations of OPEN, each a read and a write of one register, in order. -/
def Obligations.OpenPhases : Prop :=
  ∀ (r : BitVec 2) (d : Duty) (s : State),
    (s.pc = .o .o1 → exec (.openEngine r d) s =
      .next (s.afterRmw .apb1pcenr (s.answer .apb1pcenr ||| 0x00200000#32) (.o .o2))) ∧
    (s.pc = .o .o2 → exec (.openEngine r d) s =
      .next (s.afterRmw .apb1prstr (s.answer .apb1prstr ||| 0x00200000#32) (.o .o3))) ∧
    (s.pc = .o .o3 → exec (.openEngine r d) s =
      .next (s.afterRmw .apb1prstr (s.answer .apb1prstr &&& ~~~0x00200000#32) (.o .o4))) ∧
    (s.pc = .o .o4 → exec (.openEngine r d) s =
      .next (s.afterRmw .apb2pcenr (s.answer .apb2pcenr ||| 0x00000001#32) (.o .o5))) ∧
    (s.pc = .o .o5 → exec (.openEngine r d) s =
      .next (s.afterRmw .ctlr1 (s.answer .ctlr1 ||| 0x8000#32) (.o .o6))) ∧
    (s.pc = .o .o6 → exec (.openEngine r d) s =
      .next (s.afterRmw .ctlr1 (s.answer .ctlr1 &&& ~~~0x8000#32) (.o .o7))) ∧
    (s.pc = .o .o7 → exec (.openEngine r d) s =
      .next (s.afterRmw .pcfr1
        ((s.answer .pcfr1 &&& ~~~0x00400002#32) ||| (remapField s.remap &&& 0x00400002#32)) (.o .o8))) ∧
    (s.pc = .o .o8 → exec (.openEngine r d) s =
      .next (s.afterRmw .ctlr2 ((s.answer .ctlr2 &&& ~~~0x003F#32) ||| (freqField s.pclk &&& 0x003F#32)) (.o .o9))) ∧
    (s.pc = .o .o9 → exec (.openEngine r d) s =
      .next { s.afterRmw .ckcfgr
          ((s.answer .ckcfgr &&& ~~~0xCFFF#32) |||
            (timingField (resolveTiming params s.pclk s.speed s.dutySel) &&& 0xCFFF#32)) (.o .o10) with
        timing := resolveTiming params s.pclk s.speed s.dutySel }) ∧
    (s.pc = .o .o10 → exec (.openEngine r d) s =
      .next (s.afterRmw .ctlr1 (s.answer .ctlr1 ||| 0x0001#32) (.o .o11))) ∧
    (s.pc = .o .o11 → exec (.openEngine r d) s =
      .next { s.afterRmw .ctlr1 (s.answer .ctlr1 ||| 0x0400#32) .idle with
        res := { s.res with done := true, code := .ok } })

/-- R121, R122 as a run: an admitted OPEN ends after its acceptance and eleven steps with exactly 22 events, whatever
the environment answers; `res.div`, `res.fs` and `res.duty` are unchanged. That the acceptance is a step of its own,
the first of the twelve, is the model's choice, log entry 7 (DEDUCED). -/
def Obligations.OpenCompletes : Prop :=
  ∀ (r : BitVec 2) (d : Duty) (o : Operands) (rest : List Command) (s : State),
    s.resetPin = [] → s.pc = .idle → s.owned = false → s.host = ⟨encode (.openEngine r d), o⟩ :: rest →
    1 ≤ o.speed.toNat → o.speed.toNat ≤ 1000000 →
    ∃ (t : State) (v1 v2 v3 v4 v5 v6 v7 v8 v9 v10 v11 : Word),
      runFor 12 s = .next t ∧
      t.pc = .idle ∧ t.owned = true ∧ t.op = .openEngine ∧ t.host = rest ∧ t.refused = s.refused ∧
      t.pclk = o.pclk ∧ t.speed = o.speed ∧ t.dutySel = d ∧ t.remap = r ∧
      t.res = { s.res with done := true, code := .ok } ∧
      t.timing = resolveTiming params o.pclk o.speed d ∧
      t.a7 = s.a7 ∧ t.wdata = s.wdata ∧ t.m = s.m ∧ t.i = s.i ∧ t.thenRead = s.thenRead ∧ t.rbuf = s.rbuf ∧
      t.trace = s.trace ++
        [.rd .apb1pcenr v1, .wr .apb1pcenr (v1 ||| 0x00200000#32),
         .rd .apb1prstr v2, .wr .apb1prstr (v2 ||| 0x00200000#32),
         .rd .apb1prstr v3, .wr .apb1prstr (v3 &&& ~~~0x00200000#32),
         .rd .apb2pcenr v4, .wr .apb2pcenr (v4 ||| 0x00000001#32),
         .rd .ctlr1 v5, .wr .ctlr1 (v5 ||| 0x8000#32),
         .rd .ctlr1 v6, .wr .ctlr1 (v6 &&& ~~~0x8000#32),
         .rd .pcfr1 v7, .wr .pcfr1 ((v7 &&& ~~~0x00400002#32) ||| (remapField r &&& 0x00400002#32)),
         .rd .ctlr2 v8, .wr .ctlr2 ((v8 &&& ~~~0x003F#32) ||| (freqField o.pclk &&& 0x003F#32)),
         .rd .ckcfgr v9, .wr .ckcfgr ((v9 &&& ~~~0xCFFF#32) |||
           (timingField (resolveTiming params o.pclk o.speed d) &&& 0xCFFF#32)),
         .rd .ctlr1 v10, .wr .ctlr1 (v10 ||| 0x0001#32),
         .rd .ctlr1 v11, .wr .ctlr1 (v11 ||| 0x0400#32)]

/-- R83, R87, R88, R125: the fields OPEN writes lie where the register map puts them, and the other bits are as read:
the remap bits in PCFR1 bits 1 and 22, and the low 12 bits of the divider, the duty bit and the fast-mode bit in
CKCFGR bits 11:0, 14 and 15. -/
def Obligations.OpenFieldsBitByBit : Prop :=
  (∀ (v : Word) (r : BitVec 2) (k : Nat), k < 32 →
    ((v &&& ~~~0x00400002#32) ||| (remapField r &&& 0x00400002#32)).getLsbD k =
      if k = 1 then r.getLsbD 0 else if k = 22 then r.getLsbD 1 else v.getLsbD k) ∧
  (∀ (v : Word) (t : Timing) (k : Nat), k < 32 →
    ((v &&& ~~~0xCFFF#32) ||| (timingField t &&& 0xCFFF#32)).getLsbD k =
      if k < 12 then t.div.getLsbD k
      else if k = 14 then t.duty.getLsbD 0
      else if k = 15 then t.fs.getLsbD 0
      else v.getLsbD k)

/-- R128, which the spec marks as derived: two OPENs with equal operands whose reads return equal values record equal
traces (twelve steps each: the acceptance is a step of its own, the model's choice, log entry 7). -/
def Obligations.EqualOpensRecordEqualTraces : Prop :=
  ∀ (r : BitVec 2) (d : Duty) (o : Operands) (rest rest' : List Command) (s s' : State) (vs : List Word)
    (more more' : List Answer),
    s.resetPin = [] → s.pc = .idle → s.owned = false → s.host = ⟨encode (.openEngine r d), o⟩ :: rest →
    s'.resetPin = [] → s'.pc = .idle → s'.owned = false → s'.host = ⟨encode (.openEngine r d), o⟩ :: rest' →
    1 ≤ o.speed.toNat → o.speed.toNat ≤ 1000000 →
    vs.length = 11 → s.answers = vs.map .value ++ more → s'.answers = vs.map .value ++ more' →
    ∃ (t t' : State) (ev : List Event),
      runFor 12 s = .next t ∧ runFor 12 s' = .next t' ∧ t.pc = .idle ∧ t'.pc = .idle ∧
      t.trace = s.trace ++ ev ∧ t'.trace = s'.trace ++ ev

/-- R126, R127: CLOSE is accepted with `owned = 1` and refused without; C1 clears PE, hands the resources back and posts
OK, and changes nothing else. That a refused command is gone from the port is the model's choice, log entries 8
and 17. -/
def Obligations.CloseAcceptedAndDone : Prop :=
  ∀ s : State,
    (∀ (c : Command) (rest : List Command), s.pc = .idle → s.host = c :: rest → s.owned = true →
      exec .closeEngine s = .next { s with host := rest, op := .closeEngine, pc := .c1 }) ∧
    (∀ (c : Command) (rest : List Command), s.pc = .idle → s.host = c :: rest → s.owned = false →
      refusalOf .closeEngine s.owned c.operands = some .rfState ∧
      exec .closeEngine s = .next { s with host := rest, refused := true }) ∧
    (s.pc = .c1 →
      exec .closeEngine s =
        .next { s.afterRmw .ctlr1 (s.answer .ctlr1 &&& ~~~0x0001#32) .idle with
          owned := false, res := { s.res with done := true, code := .ok } })

/-- R26: each of the three resources moves from the host to the sequencer when an OPEN is accepted and back to the host
in the last step of a CLOSE, and no other step that is not the block's reset moves one. -/
def Obligations.ResourcesMoveOnlyAtOpenAndClose : Prop :=
  ∀ (s t : State) (x : Resource), s.Inv → s.resetAsserted = false → step s = .next t →
    (acceptedIn s t [.openEngine] → s.holder x = .host ∧ t.holder x = .sequencer) ∧
    (s.pc = .c1 → s.holder x = .sequencer ∧ t.holder x = .host) ∧
    (t.holder x ≠ s.holder x → acceptedIn s t [.openEngine] ∨ (s.pc = .c1 ∧ t.pc = .idle))

/-! ### Polls, flags and the error check -/

/-- R141-R147: each wait predicate by its flags' bits; the READ address wait under both values of its parameter. -/
def Obligations.WaitPredicatesByFlagBits : Prop :=
  ∀ s1 s2 : Word,
    pIdle params s1 s2 = !s2.getLsbD 1 ∧
    pMms params s1 s2 = (s1.getLsbD 0 && s2.getLsbD 1 && s2.getLsbD 0) ∧
    pMtms params s1 s2 = (s1.getLsbD 1 && s1.getLsbD 7 && s2.getLsbD 1 && s2.getLsbD 0 && s2.getLsbD 2) ∧
    pMrms params s1 s2 = (s1.getLsbD 1 && s1.getLsbD 7 && s2.getLsbD 1 && s2.getLsbD 0) ∧
    pMrms { params with readAddrWaitTxe := false } s1 s2 = (s1.getLsbD 1 && s2.getLsbD 1 && s2.getLsbD 0) ∧
    pTxe params s1 s2 = s1.getLsbD 7 ∧
    pBtf params s1 s2 = (s1.getLsbD 2 && s1.getLsbD 7 && s2.getLsbD 1 && s2.getLsbD 0 && s2.getLsbD 2) ∧
    pRxne params s1 s2 = (s1.getLsbD 6 && s2.getLsbD 0 && s2.getLsbD 1)

/-- R149: no wait predicate reads BERR, AF, ARLO or OVR (STAR1 bits 8, 10, 9 and 11). -/
def Obligations.WaitsIgnoreErrorFlags : Prop :=
  ∀ (p : Phase) (P : Word → Word → Bool) (s1 s1' s2 : Word), pollOf p = some P →
    s1 &&& ~~~0x0F00#32 = s1' &&& ~~~0x0F00#32 → P s1 s2 = P s1' s2

/-- R150, R181, R183: the code the error check gives, by the flags' bits in their priority order, and its number. -/
def Obligations.ErrorCheckPriority : Prop :=
  ∀ s1 : Word,
    codeBits (classify s1) =
      if s1.getLsbD 8 then 1#3 else if s1.getLsbD 10 then 2#3 else if s1.getLsbD 9 then 3#3
      else if s1.getLsbD 11 then 4#3 else 0#3

/-- R140: one iteration of any polling phase reads STAR1 and then STAR2 and nothing else, and judges the predicate on
that pair: if it holds `pc` moves on, else everything but the environment's side is unchanged, `pc` included. -/
def Obligations.PollIteration : Prop :=
  ∀ (s : State) (P : Word → Word → Bool), s.Inv → s.resetAsserted = false → pollOf s.pc = some P →
    (P s.snap1 s.snap2 = false → step s = .next (s.clockPin.afterPoll s.pc s.i)) ∧
    (P s.snap1 s.snap2 = true → ∃ (p : Phase) (k : Nat), p ≠ s.pc ∧ step s = .next (s.clockPin.afterPoll p k))

/-- R186 (and R149): while the environment's answers fail the predicate of a polling phase the command stays in that
phase, two events a step, and posts nothing, for any number of steps. -/
def Obligations.PollHangsWhileUnsatisfied : Prop :=
  ∀ (s : State) (P : Word → Word → Bool) (xs : List Snap) (more : List Answer),
    s.Inv → s.resetPin = [] → pollOf s.pc = some P → (∀ x ∈ xs, x.sat P = false) →
    s.answers = xs.flatMap Snap.answers ++ more →
    ∃ env, runFor xs.length s = .next { s with
      env := env, answers := more, reads := s.reads + 2 * xs.length, trace := s.trace ++ xs.flatMap Snap.events }

/-! ### WRITE, READ and WRITE_READ -/

/-- R155, R160, R170: what the acceptance of each transaction latches. -/
def Obligations.TransactionsAccepted : Prop :=
  ∀ (a : BitVec 7) (s : State) (c : Command) (rest : List Command),
    s.pc = .idle → s.owned = true → s.host = c :: rest →
    exec (.write a) s = .next { s with
      host := rest, op := .write, a7 := a, wdata := c.operands.wdata, thenRead := false, pc := .w .w1 } ∧
    exec (.read a) s = .next { s with
      host := rest, op := .read, a7 := a, m := c.operands.rbuf.length, rbuf := c.operands.rbuf,
      thenRead := false, pc := .r .r1 } ∧
    exec (.writeRead a) s = .next { s with
      host := rest, op := .writeRead, a7 := a, wdata := c.operands.wdata, m := c.operands.rbuf.length,
      rbuf := c.operands.rbuf, thenRead := true, pc := .w .w1 }

/-- R155: every phase of a WRITE, as a command of its own and as the first half of a WRITE_READ. -/
def Obligations.WritePhases : Prop :=
  ∀ (a : BitVec 7) (i : Instr) (s : State), (i = .write a ∨ i = .writeRead a) →
    (s.pc = .w .w1 → exec i s = .next (s.afterPoll (if pIdle params s.snap1 s.snap2 then .w .w2 else .w .w1) s.i)) ∧
    (s.pc = .w .w2 → exec i s = .next (s.afterRmw .ctlr1 (s.answer .ctlr1 ||| 0x0100#32) (.w .w3))) ∧
    (s.pc = .w .w3 → exec i s = .next (s.afterPoll (if pMms params s.snap1 s.snap2 then .w .w4 else .w .w3) s.i)) ∧
    (s.pc = .w .w4 → exec i s = .next { s with
      env := s.env.set .datar ((s.a7 ++ 0#1).setWidth 32)
      trace := s.trace ++ [.wr .datar ((s.a7 ++ 0#1).setWidth 32)], pc := .w .w5 }) ∧
    (s.pc = .w .w5 → exec i s = .next
      (if pMtms params s.snap1 s.snap2 then s.afterPoll (if 0 < s.wdata.length then .w .w6t else .w .w7) 0
       else s.afterPoll (.w .w5) s.i)) ∧
    (s.pc = .w .w6t → exec i s = .next (s.afterPoll (if pTxe params s.snap1 s.snap2 then .w .w6d else .w .w6t) s.i)) ∧
    (∀ b : Byte, s.pc = .w .w6d → s.wdata[s.i]? = some b → exec i s = .next { s with
      env := s.env.set .datar (b.setWidth 32)
      trace := s.trace ++ [.wr .datar (b.setWidth 32)]
      i := s.i + 1
      pc := if s.i + 1 < s.wdata.length then .w .w6t else .w .w7 }) ∧
    (s.pc = .w .w7 → exec i s = .next (s.afterPoll (if pBtf params s.snap1 s.snap2 then .w .w8 else .w .w7) s.i)) ∧
    (s.pc = .w .w8 → exec i s = .next (s.afterRmw .ctlr1 (s.answer .ctlr1 ||| 0x0200#32) (.w .w9))) ∧
    (s.pc = .w .w9 → exec i s = .next
      (if s.thenRead = true ∧ classify (s.answer .star1) = .ok then
         { s.afterStar1 (.r .r1) with thenRead := false }
       else { s.afterStar1 .idle with res := { s.res with done := true, code := classify (s.answer .star1) } }))

/-- R160: every phase of a READ, as a command of its own and as the second half of a WRITE_READ (`READ_ADDR_WAIT_TXE`
true, the value the spec takes, R144: log entry 14, G9). -/
def Obligations.ReadPhases : Prop :=
  ∀ (a : BitVec 7) (i : Instr) (s : State), (i = .read a ∨ i = .writeRead a) →
    (s.pc = .r .r1 → exec i s = .next (s.afterPoll (if pIdle params s.snap1 s.snap2 then .r .r2 else .r .r1) s.i)) ∧
    (s.pc = .r .r2 → exec i s = .next (s.afterRmw .ctlr1 (s.answer .ctlr1 ||| 0x0100#32) (.r .r3))) ∧
    (s.pc = .r .r3 → exec i s = .next (s.afterPoll (if pMms params s.snap1 s.snap2 then .r .r4 else .r .r3) s.i)) ∧
    (s.pc = .r .r4 → exec i s = .next { s with
      env := s.env.set .datar ((s.a7 ++ 1#1).setWidth 32)
      trace := s.trace ++ [.wr .datar ((s.a7 ++ 1#1).setWidth 32)], pc := .r .r5 }) ∧
    (s.pc = .r .r5 → exec i s = .next
      (if pMrms params s.snap1 s.snap2 then s.afterPoll (if 0 < s.m then .r .r6r else .r .r7) 0
       else s.afterPoll (.r .r5) s.i)) ∧
    (s.pc = .r .r6r → exec i s = .next (s.afterPoll (if pRxne params s.snap1 s.snap2 then .r .r6d else .r .r6r) s.i)) ∧
    (s.pc = .r .r6d → s.i < s.rbuf.length → exec i s = .next { s with
      env := s.env.set .datar (s.answer .datar)
      answers := s.answers.tail
      reads := s.reads + 1
      rbuf := s.rbuf.set s.i ((s.answer .datar).setWidth 8)
      trace := s.trace ++ [.rd .datar (s.answer .datar), .hb s.i ((s.answer .datar).setWidth 8)]
      i := s.i + 1
      pc := if s.i + 1 < s.m then .r .r6r else .r .r7 }) ∧
    (s.pc = .r .r7 → exec i s = .next (s.afterRmw .ctlr1 (s.answer .ctlr1 ||| 0x0200#32) (.r .r8))) ∧
    (s.pc = .r .r8 → exec i s = .next
      { s.afterStar1 .idle with res := { s.res with done := true, code := classify (s.answer .star1) } })

/-- R144 under both values of `READ_ADDR_WAIT_TXE` (G9): R5 passes when ADDR, BUSY and MSL are set, and TxE too under
the value true; TRA is required under neither. -/
def Obligations.AddressWaitUnderBothParameters : Prop :=
  ∀ (b : Bool) (a : BitVec 7) (i : Instr) (s : State), (i = .read a ∨ i = .writeRead a) → s.pc = .r .r5 →
    execAt { params with readAddrWaitTxe := b } i s = .next
      (if s.snap1.getLsbD 1 && (!b || s.snap1.getLsbD 7) && s.snap2.getLsbD 1 && s.snap2.getLsbD 0
       then s.afterPoll (if 0 < s.m then .r .r6r else .r .r7) 0
       else s.afterPoll (.r .r5) s.i)

/-- R148: the address byte is twice the address plus the direction bit, and no bit of it is dropped; W4 and R4 write
it. -/
def Obligations.AddressByteValue : Prop :=
  ∀ a : BitVec 7,
    (dataWord (addressByte a 0#1)).toNat = 2 * a.toNat ∧
    (dataWord (addressByte a 1#1)).toNat = 2 * a.toNat + 1 ∧
    (∀ s : State, s.a7 = a → s.pc = .w .w4 → ∃ t, exec (.write a) s = .next t ∧
      ∃ w, t.trace = s.trace ++ [.wr .datar w] ∧ w.toNat = 2 * a.toNat) ∧
    (∀ s : State, s.a7 = a → s.pc = .r .r4 → ∃ t, exec (.read a) s = .next t ∧
      ∃ w, t.trace = s.trace ++ [.wr .datar w] ∧ w.toNat = 2 * a.toNat + 1)

/-- R155, and R176 (derived): a WRITE whose polls all exit, after any number of failed iterations each, ends: it posts
the code of the STAR1 value read at W9, and records the events of its phases in order, 14 + 3n of them and two more
for each failed iteration. That the acceptance is a step of its own, before the `x.steps`, is the model's choice, log
entry 7 (DEDUCED). -/
def Obligations.WriteRunsToItsEnd : Prop :=
  ∀ (a : BitVec 7) (o : Operands) (rest : List Command) (x : WriteScript) (more : List Answer) (s : State),
    s.resetPin = [] → s.pc = .idle → s.owned = true → s.host = ⟨encode (.write a), o⟩ :: rest →
    x.exits o.wdata.length → s.answers = x.answers ++ more →
    (∃ env, runFor (x.steps + 1) s = .next { s with
      env := env, host := rest, op := .write, a7 := a, wdata := o.wdata, thenRead := false,
      i := o.wdata.length, answers := more, reads := s.reads + x.answers.length,
      trace := s.trace ++ x.events a o.wdata,
      res := { s.res with done := true, code := classify (x.e9.setWidth 32) } }) ∧
    (x.events a o.wdata).length = 14 + 3 * o.wdata.length + 2 * x.failed

/-- R160, and R176 and R164 (derived): a READ whose polls all exit ends: RBUF holds the bytes DATAR read, in order,
whatever the code (R164); it records 12 + 3m register events and m `Hb` events, and two more for each failed
iteration. It assumes `READ_ADDR_WAIT_TXE` true at R5 (log entry 14; G9 asks a completion claim to say so). That the
acceptance is a step of its own is the model's choice, log entry 7 (DEDUCED). -/
def Obligations.ReadRunsToItsEnd : Prop :=
  ∀ (a : BitVec 7) (o : Operands) (rest : List Command) (x : ReadScript) (more : List Answer) (s : State),
    s.resetPin = [] → s.pc = .idle → s.owned = true → s.host = ⟨encode (.read a), o⟩ :: rest →
    x.exits o.rbuf.length → s.answers = x.answers ++ more →
    (∃ env, runFor (x.steps + 1) s = .next { s with
      env := env, host := rest, op := .read, a7 := a, m := o.rbuf.length, thenRead := false,
      i := o.rbuf.length, rbuf := x.bytes, answers := more, reads := s.reads + x.answers.length,
      trace := s.trace ++ x.events a,
      res := { s.res with done := true, code := classify (x.e8.setWidth 32) } }) ∧
    (x.events a).length = 12 + 4 * o.rbuf.length + 2 * x.failed

/-- R170, R172, and R176 (derived): a WRITE_READ whose write half reports an error ends there: that code is posted, no
event of the read half is recorded and RBUF is the host's, unchanged. That the acceptance is a step of its own is the
model's choice, log entry 7 (DEDUCED). -/
def Obligations.WriteReadStopsAtAWriteError : Prop :=
  ∀ (a : BitVec 7) (o : Operands) (rest : List Command) (x : WriteScript) (more : List Answer) (s : State),
    s.resetPin = [] → s.pc = .idle → s.owned = true → s.host = ⟨encode (.writeRead a), o⟩ :: rest →
    x.exits o.wdata.length → classify (x.e9.setWidth 32) ≠ .ok → s.answers = x.answers ++ more →
    ∃ env, runFor (x.steps + 1) s = .next { s with
      env := env, host := rest, op := .writeRead, a7 := a, wdata := o.wdata, thenRead := true,
      m := o.rbuf.length, i := o.wdata.length, rbuf := o.rbuf, answers := more,
      reads := s.reads + x.answers.length, trace := s.trace ++ x.events a o.wdata,
      res := { s.res with done := true, code := classify (x.e9.setWidth 32) } }

/-- R170, R171: a WRITE_READ whose write half succeeds records a full WRITE and then a full READ, each with its own
START and STOP and to the same address, and posts the READ's code once, at the end. Its read half assumes
`READ_ADDR_WAIT_TXE` true at R5 (log entry 14, G9). That the acceptance is a step of its own is the model's choice,
log entry 7 (DEDUCED). -/
def Obligations.WriteReadRunsBothHalves : Prop :=
  ∀ (a : BitVec 7) (o : Operands) (rest : List Command) (x : WriteScript) (y : ReadScript) (more : List Answer)
    (s : State),
    s.resetPin = [] → s.pc = .idle → s.owned = true → s.host = ⟨encode (.writeRead a), o⟩ :: rest →
    x.exits o.wdata.length → classify (x.e9.setWidth 32) = .ok → y.exits o.rbuf.length →
    s.answers = x.answers ++ y.answers ++ more →
    ∃ env, runFor (x.steps + y.steps + 1) s = .next { s with
      env := env, host := rest, op := .writeRead, a7 := a, wdata := o.wdata, thenRead := false,
      m := o.rbuf.length, i := o.rbuf.length, rbuf := y.bytes, answers := more,
      reads := s.reads + x.answers.length + y.answers.length,
      trace := s.trace ++ x.events a o.wdata ++ y.events a,
      res := { s.res with done := true, code := classify (y.e8.setWidth 32) } }

/-- R159, which the spec marks as derived, for any environment and any number of failed iterations: a WRITE that
completes has written START, the address byte, its n bytes in order and STOP, and nothing else. -/
def Obligations.CompletedWriteShape : Prop :=
  ∀ (a : BitVec 7) (k : Nat) (s t : State),
    s.Inv → s.resetPin = [] → s.pc = .w .w1 → s.current = .write a →
    (∀ j < k, ∀ u, runFor j s = .next u → u.pc ≠ .idle) → runFor k s = .next t → t.pc = .idle →
    ∃ (ev : List Event) (v2 v8 : Word), t.trace = s.trace ++ ev ∧ writesIn ev = writeShape a s.wdata v2 v8

/-- R163 and R164, which the spec marks as derived, for any environment: a READ that completes has written START, the
address byte with the read bit and STOP; it has read DATAR m times, and RBUF holds the low byte of each value read, in
order, whatever code was posted. -/
def Obligations.CompletedReadShape : Prop :=
  ∀ (a : BitVec 7) (k : Nat) (s t : State),
    s.Inv → s.resetPin = [] → s.pc = .r .r1 → s.current = .read a →
    (∀ j < k, ∀ u, runFor j s = .next u → u.pc ≠ .idle) → runFor k s = .next t → t.pc = .idle →
    ∃ (ev : List Event) (v2 v7 : Word) (vs : List Word), t.trace = s.trace ++ ev ∧
      writesIn ev = readShape a v2 v7 ∧ dataReadsIn ev = vs.map (fun v => .rd .datar v) ∧
      vs.length = s.rbuf.length ∧ t.rbuf = vs.map (fun v => v.setWidth 8)

/-- R156, R157, R216: the phase that writes a data byte is entered only by a poll that saw TxE, the one that requests
STOP for a WRITE only by a poll that saw BTF, TxE, BUSY, MSL and TRA, and the one that reads DATAR only by a poll that
saw RxNE, MSL and BUSY; and DATAR is written only in W4, W6D and R4 and read only in R6D. -/
def Obligations.NoAccessOvertakesItsPoll : Prop :=
  ∀ s t : State, s.Inv → s.resetAsserted = false → step s = .next t →
    (t.pc = .w .w6d → (s.pc = .w .w6t ∧ s.snap1.getLsbD 7 = true)) ∧
    (t.pc = .w .w8 → (s.pc = .w .w7 ∧ s.snap1.getLsbD 2 = true ∧ s.snap1.getLsbD 7 = true ∧
      s.snap2.getLsbD 1 = true ∧ s.snap2.getLsbD 0 = true ∧ s.snap2.getLsbD 2 = true)) ∧
    (t.pc = .r .r6d → (s.pc = .r .r6r ∧ s.snap1.getLsbD 6 = true ∧ s.snap2.getLsbD 0 = true ∧
      s.snap2.getLsbD 1 = true)) ∧
    (∀ ev, t.trace = s.trace ++ ev →
      ((∃ v, .wr .datar v ∈ ev) → s.pc = .w .w4 ∨ s.pc = .w .w6d ∨ s.pc = .r .r4) ∧
      ((∃ v, .rd .datar v ∈ ev) → s.pc = .r .r6d))

/-! ### Whole-machine rules -/

/-- R33: the environment may answer any value of a register's width, and a step is a function of the answers, the
sequencer's registers and the operands: what the environment's registers hold and what was recorded before do not
matter. (Answers written as values: R33's `RegRead`; a step reads at most two registers.) -/
def Obligations.OnlyTheAnswersMatter : Prop :=
  (∀ (s : State) (r : Reg) (v : Word) (more : List Answer), fits r v →
    State.answer { s with answers := .value v :: more } r = v) ∧
  (∀ (s t : State) (v w : Word) (more : List Answer) (e : EnvRegs) (tr : List Event),
    s.answers = .value v :: .value w :: more → step s = .next t →
    ∃ (e' : EnvRegs) (ev : List Event), t.trace = s.trace ++ ev ∧
      step { s with env := e, trace := tr } = .next { t with env := e', trace := tr ++ ev })

/-- R175, which the spec marks as derived, with R121, R106, R126 and R184: `pc` moves as the transition table says,
and no other transition exists (the block's reset apart, R200). Its row of R5 is that of `READ_ADDR_WAIT_TXE` true
(log entry 14, G9). -/
def Obligations.TransitionTable : Prop :=
  ∀ s t : State, s.Inv → s.resetAsserted = false → step s = .next t → t.pc = nextPhase s

/-- R56: what one step records: nothing, one write, one read, a read and a write of one register, a read of STAR1 and
one of STAR2, or a read of DATAR and the write of its low byte to RBUF. -/
def Obligations.OneMicroOperationPerStep : Prop :=
  ∀ s t : State, step s = .next t → ∃ ev, t.trace = s.trace ++ ev ∧
    (ev = [] ∨ (∃ v, ev = [.wr .datar v]) ∨ (∃ v, ev = [.rd .star1 v]) ∨
     (∃ r v w, ev = [.rd r v, .wr r w]) ∨ (∃ v w, ev = [.rd .star1 v, .rd .star2 w]) ∨
     (∃ v k, ev = [.rd .datar v, .hb k (v.setWidth 8)]))

/-- R140, R210: in every trace the block extends, each read of STAR2 comes right after a read of STAR1. -/
def Obligations.StatusReadsStayPaired : Prop :=
  ∀ s t : State, pairedReads s.trace = true → step s = .next t → pairedReads t.trace = true

/-- R27, R29, and R31 (derived): no step writes STAR1 or STAR2, so the block never clears a flag; DATAR is never read
in order to write it. -/
def Obligations.StatusRegistersNeverWritten : Prop :=
  ∀ (s t : State) (ev : List Event), step s = .next t → t.trace = s.trace ++ ev →
    (∀ v, .wr .star1 v ∉ ev ∧ .wr .star2 v ∉ ev) ∧ (∀ v w, ev ≠ [.rd .datar v, .wr .datar w])

/-- R27, R80: the two registers the block has beside those the sequencer reaches, OADDR1 and OADDR2, are never
accessed: no event has their address. That the values held for them stay as they are in every step, those of OPEN that
reset the peripheral and the block's reset included, is no rule of the spec but the model's choice, log entry 16 (DESIGN
CHOICE): `env` holds the value that last crossed the interface, and none crosses it for these two. -/
def Obligations.UnaccessedRegistersKeepTheirValues : Prop :=
  ∀ (s t : State) (ev : List Event), step s = .next t → t.trace = s.trace ++ ev →
    t.env.oaddr1 = s.env.oaddr1 ∧ t.env.oaddr2 = s.env.oaddr2 ∧
    ∀ (r : Reg) (v : Word), .rd r v ∈ ev ∨ .wr r v ∈ ev → regAddr r ≠ 0x40005408 ∧ regAddr r ≠ 0x4000540C

/-- R28: a read-modify-write writes back what it read in every bit that R27 does not name for the register (R81-R87),
and a write of DATAR has 0 in the bits above 7. -/
def Obligations.OpaqueBitsWrittenBack : Prop :=
  ∀ (s t : State) (ev : List Event), step s = .next t → t.trace = s.trace ++ ev →
    (∀ (r : Reg) (v w : Word), ev = [.rd r v, .wr r w] →
      let named : Word := match r with
        | .ctlr1 => 0x8701 | .ctlr2 => 0x003F | .ckcfgr => 0xCFFF | .pcfr1 => 0x00400002
        | .apb1pcenr | .apb1prstr => 0x00200000 | .apb2pcenr => 0x00000001
        | .datar | .star1 | .star2 => 0
      w &&& ~~~named = v &&& ~~~named) ∧
    (∀ w : Word, .wr .datar w ∈ ev → w.toNat < 256)

/-- R81, R123, R161, R211: which step changes which control bit of CTLR1: PE is set at O10 and cleared at C1, ACK is
set at O11 and never cleared, START is set at W2 and R2, STOP at W8 and R7, SWRST set at O5 and cleared at O6; no
other bit changes, and PE and ACK never change together. -/
def Obligations.ControlBitsChangeOnlyInTheirPhases : Prop :=
  ∀ (s t : State) (v w : Word), step s = .next t → t.trace = s.trace ++ [.rd .ctlr1 v, .wr .ctlr1 w] →
    (w.getLsbD 0 ≠ v.getLsbD 0 → (s.pc = .o .o10 ∧ w.getLsbD 0 = true) ∨ (s.pc = .c1 ∧ w.getLsbD 0 = false)) ∧
    (w.getLsbD 10 ≠ v.getLsbD 10 → s.pc = .o .o11 ∧ w.getLsbD 10 = true) ∧
    (w.getLsbD 8 ≠ v.getLsbD 8 → (s.pc = .w .w2 ∨ s.pc = .r .r2) ∧ w.getLsbD 8 = true) ∧
    (w.getLsbD 9 ≠ v.getLsbD 9 → (s.pc = .w .w8 ∨ s.pc = .r .r7) ∧ w.getLsbD 9 = true) ∧
    (w.getLsbD 15 ≠ v.getLsbD 15 →
      (s.pc = .o .o5 ∧ w.getLsbD 15 = true) ∨ (s.pc = .o .o6 ∧ w.getLsbD 15 = false)) ∧
    (∀ k, k ≠ 0 → k ≠ 8 → k ≠ 9 → k ≠ 10 → k ≠ 15 → w.getLsbD k = v.getLsbD k)

/-- R21: each sequencer register is written only where the register table says: by the acceptance of a command whose
row it names (`acceptedIn`: a command at the port that is taken, so never by a refusal or while the block waits) or in
the named steps. `thenRead` is also cleared where a WRITE_READ starts its read half (R170). -/
def Obligations.RegistersWrittenOnlyWhereListed : Prop :=
  ∀ s t : State, s.resetAsserted = false → step s = .next t →
    (t.owned ≠ s.owned →
      (acceptedIn s t [.openEngine] ∧ t.owned = true) ∨ (s.pc = .c1 ∧ t.pc = .idle ∧ t.owned = false)) ∧
    (t.op ≠ s.op → acceptedIn s t [.resolve, .openEngine, .closeEngine, .write, .read, .writeRead]) ∧
    (t.a7 ≠ s.a7 → acceptedIn s t [.write, .read, .writeRead]) ∧
    (t.wdata ≠ s.wdata → acceptedIn s t [.write, .writeRead]) ∧
    (t.m ≠ s.m → acceptedIn s t [.read, .writeRead]) ∧
    (t.i ≠ s.i → s.pc = .w .w5 ∨ s.pc = .w .w6d ∨ s.pc = .r .r5 ∨ s.pc = .r .r6d) ∧
    (t.thenRead ≠ s.thenRead →
      acceptedIn s t [.write, .read, .writeRead] ∨ (s.pc = .w .w9 ∧ t.pc = .r .r1 ∧ t.thenRead = false)) ∧
    (t.pclk ≠ s.pclk ∨ t.speed ≠ s.speed ∨ t.dutySel ≠ s.dutySel → acceptedIn s t [.resolve, .openEngine]) ∧
    (t.remap ≠ s.remap → acceptedIn s t [.openEngine]) ∧
    (t.timing ≠ s.timing → s.pc = .o .o9) ∧
    (t.res ≠ s.res → t.pc = .idle ∧ s.pc ≠ .idle) ∧
    (t.res.div ≠ s.res.div ∨ t.res.fs ≠ s.res.fs ∨ t.res.duty ≠ s.res.duty → s.pc = .s1) ∧
    (t.refused ≠ s.refused → t.refused = true ∧ s.pc = .idle ∧ t.pc = .idle)

/-- R52, and R60 (derived): in a step that is not the block's reset, RBUF changes only at the acceptance of a READ or
WRITE_READ, which takes the host's buffer, and in R6D, which puts the low byte of what DATAR reads into slot `i`: every
other slot keeps its contents. -/
def Obligations.ReadBufferWrittenSlotBySlot : Prop :=
  ∀ s t : State, s.resetAsserted = false → step s = .next t → t.rbuf ≠ s.rbuf →
    (s.pc = .idle ∧ ((t.op = .read ∧ t.pc = .r .r1) ∨ (t.op = .writeRead ∧ t.pc = .w .w1)) ∧
      ∃ c, s.host.head? = some c ∧ t.rbuf = c.operands.rbuf) ∨
    (s.pc = .r .r6d ∧ t.rbuf.length = s.rbuf.length ∧
      t.rbuf[s.i]? = some ((s.answer .datar).setWidth 8) ∧ ∀ k, k ≠ s.i → t.rbuf[k]? = s.rbuf[k]?)

/-- R70, D21: while a command runs the host has no move: the step does not depend on the commands it will issue, and
takes none. -/
def Obligations.HostHasNoMoveWhileBusy : Prop :=
  ∀ (s t : State) (h : List Command), s.pc ≠ .idle → step s = .next t →
    t.host = s.host ∧ step { s with host := h } = .next { t with host := h }

/-- R190, with R60 and R24: while a command runs the host sees nothing; the last step of a command shows it that
command's result (`postedResult`: the code of CheckError's STAR1 read after a transaction, OK after any other command,
and the resolved timing after RESOLVE alone) with the whole of RBUF if the command is a READ or WRITE_READ; and a step
from IDLE to IDLE (a refusal, or no command) leaves what it sees as it is. The last clause, that after the block's
reset it sees nothing, a partly filled RBUF included, is the model's choice, log entry 24 (DEDUCED). -/
def Obligations.HostSeesOnlyPostedResults : Prop :=
  ∀ s t : State, step s = .next t →
    (s.resetAsserted = false →
      (s.pc ≠ .idle → s.hostSees = none) ∧ (t.pc ≠ .idle → t.hostSees = none) ∧
      (s.pc ≠ .idle → t.pc = .idle → t.hostSees =
        some { res := postedResult s,
               rbuf := if s.pc = .r .r8 ∨ (s.pc = .w .w9 ∧ s.op = .writeRead) then some s.rbuf else none }) ∧
      (s.pc = .idle → t.pc = .idle → t.hostSees = s.hostSees)) ∧
    (s.resetAsserted = true → t.hostSees = none)

/-! ### Refusals -/

/-- R129: a command in the wrong ownership state is refused with RF_STATE and has no effect but the mark; RESOLVE needs
neither state. That the refused command is gone from the port is the model's choice, log entries 8 and 17. -/
def Obligations.WrongOwnershipIsRefused : Prop :=
  ∀ (i : Instr) (s : State) (c : Command) (rest : List Command), s.pc = .idle → s.host = c :: rest →
    ((match i with
      | .resolve _ => False
      | .openEngine _ _ => s.owned = true
      | .closeEngine | .write _ | .read _ | .writeRead _ => s.owned = false) →
      refusalOf i s.owned c.operands = some .rfState ∧
      exec i s = .next { s with host := rest, refused := true }) ∧
    (∀ d, refusalOf (.resolve d) true c.operands = refusalOf (.resolve d) false c.operands ∧
      refusalOf (.resolve d) s.owned c.operands ≠ some .rfState)

/-- R107: a RESOLVE or an OPEN with a SPEED outside 1 to 1_000_000 is refused with RF_SPEED; any PCLK is admitted.
That the refused command is gone from the port is the model's choice, log entries 8 and 17. -/
def Obligations.SpeedOutsideRangeIsRefused : Prop :=
  ∀ (i : Instr) (s : State) (c : Command) (rest : List Command), s.pc = .idle → s.host = c :: rest →
    ((∃ d, i = .resolve d) ∨ (∃ r d, i = .openEngine r d ∧ s.owned = false)) →
    ((c.operands.speed.toNat = 0 ∨ 1000000 < c.operands.speed.toNat) →
      refusalOf i s.owned c.operands = some .rfSpeed ∧
      exec i s = .next { s with host := rest, refused := true }) ∧
    (1 ≤ c.operands.speed.toNat → c.operands.speed.toNat ≤ 1000000 → refusalOf i s.owned c.operands = none)

/-- R184, R185: the port refuses exactly the commands for which a reason applies, naming the first in the order
RF_OPCODE, RF_RSVD, RF_STATE, RF_SPEED (RF_LEN never applies, D22), and a refused command sets the mark and changes
nothing else. That it is gone from the port is the model's choice, log entries 8 and 17. -/
def Obligations.RefusalsAndTheirOrder : Prop :=
  (∀ (c : Command) (owned : Bool),
    (∀ e, decode c.word = .error e → portRefusal c owned = some e) ∧
    (∀ i, decode c.word = .ok i →
      portRefusal c owned =
        if (match i with
            | .resolve _ => false
            | .openEngine _ _ => owned
            | .closeEngine | .write _ | .read _ | .writeRead _ => !owned) then some .rfState
        else if (match i with
            | .resolve _ | .openEngine _ _ =>
              decide (c.operands.speed.toNat = 0) || decide (1000000 < c.operands.speed.toNat)
            | .closeEngine | .write _ | .read _ | .writeRead _ => false) then some .rfSpeed
        else none)) ∧
  (∀ (s : State) (c : Command) (rest : List Command), s.resetAsserted = false → s.pc = .idle → s.host = c :: rest →
    (portRefusal c s.owned ≠ none →
      step s = .next { s with host := rest, refused := true, resetPin := s.resetPin.tail }) ∧
    (portRefusal c s.owned = none → ∃ t, step s = .next t ∧ t.pc ≠ .idle ∧ t.refused = s.refused))

/-! ### Reset -/

/-- R200 (with R32): the block's reset gives every sequencer register its reset value, performs no access, and leaves
the environment, the host and its buffer as they are. The model's choices: that RBUF stays is log entry 4, and that
`op`, which R32 leaves unspecified, takes a named value is log entry 19. -/
def Obligations.BlockReset : Prop :=
  ∀ (s : State) (later : List Bool), s.resetPin = true :: later →
    step s = .next { s with
      owned := false, pc := .idle, op := State.reset.op, a7 := 0, wdata := [], m := 0, i := 0, thenRead := false,
      pclk := 0, speed := 0, dutySel := .lowDuty33, remap := 0, timing := ⟨0, 0, 0⟩, res := ⟨false, .ok, 0, 0, 0⟩,
      refused := false, resetPin := later }

/-- R201, which the spec marks as derived: in an unowned idle block, as a reset leaves it, the only commands admitted
are RESOLVE and OPEN. -/
def Obligations.OnlyResolveAndOpenAfterReset : Prop :=
  ∀ s t u : State, s.resetAsserted = true → step s = .next t →
    t.resetAsserted = false → step t = .next u → u.pc ≠ .idle →
    (u.pc = .s1 ∧ u.op = .resolve) ∨ (u.pc = .o .o1 ∧ u.op = .openEngine ∧ u.owned = true)

/-- R32, R200: the state at reset. To `op` R32 gives no value, and says that it is never read before a command latches
it: the last clause says so of every idle block, whatever `op` holds. -/
def Obligations.ResetValues : Prop :=
  (State.reset.owned = false ∧ State.reset.pc = .idle ∧ State.reset.a7 = 0 ∧
    State.reset.m = 0 ∧ State.reset.i = 0 ∧ State.reset.pclk = 0 ∧ State.reset.speed = 0 ∧
    State.reset.dutySel.bit = 0 ∧ State.reset.remap = 0 ∧ State.reset.wdata = [] ∧ State.reset.thenRead = false ∧
    State.reset.timing = ⟨0, 0, 0⟩ ∧ State.reset.res = ⟨false, .ok, 0, 0, 0⟩ ∧ State.reset.refused = false) ∧
  (∀ (s t : State) (x : Opcode), s.resetAsserted = false → s.pc = .idle → step s = .next t →
    step { s with op := x } = .next (if t.pc = .idle then { t with op := x } else t))

/-! ### The step -/

/-- R70, R77: with a word at the port that decodes to `i`, the step of an idle block is `exec i`. -/
def Obligations.StepRunsTheDecodedCommand : Prop :=
  ∀ (s : State) (c : Command) (rest : List Command) (i : Instr),
    s.resetAsserted = false → s.pc = .idle → s.host = c :: rest → decode c.word = .ok i →
    step s = exec i { s with resetPin := s.resetPin.tail }

/-- R23, R56, R21: while a command runs, the step is the next micro-operation of that command, which stays the running
one; and the command an idle block accepts becomes it, at its first phase. -/
def Obligations.StepRunsTheRunningCommand : Prop :=
  ∀ s : State, s.Inv → s.resetAsserted = false →
    (s.pc ≠ .idle →
      step s = exec s.current { s with resetPin := s.resetPin.tail } ∧
      ∃ t, step s = .next t ∧ t.current = s.current) ∧
    (∀ (c : Command) (rest : List Command) (i : Instr), s.pc = .idle → s.host = c :: rest → decode c.word = .ok i →
      refusalOf i s.owned c.operands = none →
      ∃ t, step s = .next t ∧ t.current = i ∧ t.pc = firstPhase i.opcode)

/-- R35: the machine is the model at the parameters the spec takes; the meanings and the step take the parameters as an
argument. -/
def Obligations.StepIsTheModelAtTheSpecsParameters : Prop :=
  ∀ s : State, step s = stepAt params s ∧ ∀ i, exec i s = execAt params i s

/-- R22, R201: an idle block with no command at its port waits. That this is a step which changes nothing but the reset
input's list is the model's choice, log entry 21 (DESIGN CHOICE). -/
def Obligations.IdleBlockWaits : Prop :=
  ∀ s : State, s.resetAsserted = false → s.pc = .idle → s.host = [] →
    step s = .next { s with resetPin := s.resetPin.tail }

/-! ### The invariant -/

/-- R21, R22, R57: every step keeps the invariant of the reachable states, the block's reset included. -/
def Obligations.StepKeepsTheInvariant : Prop :=
  ∀ s t : State, s.Inv → step s = .next t → t.Inv

/-- The reset state meets the invariant. -/
def Obligations.ResetMeetsTheInvariant : Prop := State.reset.Inv

/-- R180 and 93_implementation_defined.md ("No behaviour of this block is treated as `fault`"): from every state that
meets the invariant a step answers a next state. -/
def Obligations.NoStepEverStops : Prop :=
  ∀ s : State, s.Inv → ∃ t, step s = .next t
end

