-- ==== Sys2Proof/Laws/State.lean ====
section
/-! SUPPORT. One lemma per field per update of the state, each true by rfl, so that no later proof unfolds a record
update. -/

namespace Sys2Proof.Machine

variable (s : State)

/-! ### State.goto -/
@[simp] theorem goto_owned (p : Phase) : (s.goto p).owned = s.owned := rfl
@[simp] theorem goto_pc (p : Phase) : (s.goto p).pc = p := rfl
@[simp] theorem goto_op (p : Phase) : (s.goto p).op = s.op := rfl
@[simp] theorem goto_a7 (p : Phase) : (s.goto p).a7 = s.a7 := rfl
@[simp] theorem goto_wdata (p : Phase) : (s.goto p).wdata = s.wdata := rfl
@[simp] theorem goto_m (p : Phase) : (s.goto p).m = s.m := rfl
@[simp] theorem goto_i (p : Phase) : (s.goto p).i = s.i := rfl
@[simp] theorem goto_thenRead (p : Phase) : (s.goto p).thenRead = s.thenRead := rfl
@[simp] theorem goto_pclk (p : Phase) : (s.goto p).pclk = s.pclk := rfl
@[simp] theorem goto_speed (p : Phase) : (s.goto p).speed = s.speed := rfl
@[simp] theorem goto_dutySel (p : Phase) : (s.goto p).dutySel = s.dutySel := rfl
@[simp] theorem goto_remap (p : Phase) : (s.goto p).remap = s.remap := rfl
@[simp] theorem goto_timing (p : Phase) : (s.goto p).timing = s.timing := rfl
@[simp] theorem goto_res (p : Phase) : (s.goto p).res = s.res := rfl
@[simp] theorem goto_refused (p : Phase) : (s.goto p).refused = s.refused := rfl
@[simp] theorem goto_rbuf (p : Phase) : (s.goto p).rbuf = s.rbuf := rfl
@[simp] theorem goto_host (p : Phase) : (s.goto p).host = s.host := rfl
@[simp] theorem goto_env (p : Phase) : (s.goto p).env = s.env := rfl
@[simp] theorem goto_answers (p : Phase) : (s.goto p).answers = s.answers := rfl
@[simp] theorem goto_reads (p : Phase) : (s.goto p).reads = s.reads := rfl
@[simp] theorem goto_resetPin (p : Phase) : (s.goto p).resetPin = s.resetPin := rfl
@[simp] theorem goto_trace (p : Phase) : (s.goto p).trace = s.trace := rfl

/-! ### State.setIndex -/
@[simp] theorem setIndex_owned (k : Nat) : (s.setIndex k).owned = s.owned := rfl
@[simp] theorem setIndex_pc (k : Nat) : (s.setIndex k).pc = s.pc := rfl
@[simp] theorem setIndex_op (k : Nat) : (s.setIndex k).op = s.op := rfl
@[simp] theorem setIndex_a7 (k : Nat) : (s.setIndex k).a7 = s.a7 := rfl
@[simp] theorem setIndex_wdata (k : Nat) : (s.setIndex k).wdata = s.wdata := rfl
@[simp] theorem setIndex_m (k : Nat) : (s.setIndex k).m = s.m := rfl
@[simp] theorem setIndex_i (k : Nat) : (s.setIndex k).i = k := rfl
@[simp] theorem setIndex_thenRead (k : Nat) : (s.setIndex k).thenRead = s.thenRead := rfl
@[simp] theorem setIndex_pclk (k : Nat) : (s.setIndex k).pclk = s.pclk := rfl
@[simp] theorem setIndex_speed (k : Nat) : (s.setIndex k).speed = s.speed := rfl
@[simp] theorem setIndex_dutySel (k : Nat) : (s.setIndex k).dutySel = s.dutySel := rfl
@[simp] theorem setIndex_remap (k : Nat) : (s.setIndex k).remap = s.remap := rfl
@[simp] theorem setIndex_timing (k : Nat) : (s.setIndex k).timing = s.timing := rfl
@[simp] theorem setIndex_res (k : Nat) : (s.setIndex k).res = s.res := rfl
@[simp] theorem setIndex_refused (k : Nat) : (s.setIndex k).refused = s.refused := rfl
@[simp] theorem setIndex_rbuf (k : Nat) : (s.setIndex k).rbuf = s.rbuf := rfl
@[simp] theorem setIndex_host (k : Nat) : (s.setIndex k).host = s.host := rfl
@[simp] theorem setIndex_env (k : Nat) : (s.setIndex k).env = s.env := rfl
@[simp] theorem setIndex_answers (k : Nat) : (s.setIndex k).answers = s.answers := rfl
@[simp] theorem setIndex_reads (k : Nat) : (s.setIndex k).reads = s.reads := rfl
@[simp] theorem setIndex_resetPin (k : Nat) : (s.setIndex k).resetPin = s.resetPin := rfl
@[simp] theorem setIndex_trace (k : Nat) : (s.setIndex k).trace = s.trace := rfl

/-! ### State.readReg -/
@[simp] theorem readReg_owned (r : Reg) (cfg : Params) : (s.readReg r cfg).owned = s.owned := rfl
@[simp] theorem readReg_pc (r : Reg) (cfg : Params) : (s.readReg r cfg).pc = s.pc := rfl
@[simp] theorem readReg_op (r : Reg) (cfg : Params) : (s.readReg r cfg).op = s.op := rfl
@[simp] theorem readReg_a7 (r : Reg) (cfg : Params) : (s.readReg r cfg).a7 = s.a7 := rfl
@[simp] theorem readReg_wdata (r : Reg) (cfg : Params) : (s.readReg r cfg).wdata = s.wdata := rfl
@[simp] theorem readReg_m (r : Reg) (cfg : Params) : (s.readReg r cfg).m = s.m := rfl
@[simp] theorem readReg_i (r : Reg) (cfg : Params) : (s.readReg r cfg).i = s.i := rfl
@[simp] theorem readReg_thenRead (r : Reg) (cfg : Params) : (s.readReg r cfg).thenRead = s.thenRead := rfl
@[simp] theorem readReg_pclk (r : Reg) (cfg : Params) : (s.readReg r cfg).pclk = s.pclk := rfl
@[simp] theorem readReg_speed (r : Reg) (cfg : Params) : (s.readReg r cfg).speed = s.speed := rfl
@[simp] theorem readReg_dutySel (r : Reg) (cfg : Params) : (s.readReg r cfg).dutySel = s.dutySel := rfl
@[simp] theorem readReg_remap (r : Reg) (cfg : Params) : (s.readReg r cfg).remap = s.remap := rfl
@[simp] theorem readReg_timing (r : Reg) (cfg : Params) : (s.readReg r cfg).timing = s.timing := rfl
@[simp] theorem readReg_res (r : Reg) (cfg : Params) : (s.readReg r cfg).res = s.res := rfl
@[simp] theorem readReg_refused (r : Reg) (cfg : Params) : (s.readReg r cfg).refused = s.refused := rfl
@[simp] theorem readReg_rbuf (r : Reg) (cfg : Params) : (s.readReg r cfg).rbuf = s.rbuf := rfl
@[simp] theorem readReg_host (r : Reg) (cfg : Params) : (s.readReg r cfg).host = s.host := rfl
@[simp] theorem readReg_env (r : Reg) (cfg : Params) : (s.readReg r cfg).env = s.env.set r (s.answer r cfg) := rfl
@[simp] theorem readReg_answers (r : Reg) (cfg : Params) : (s.readReg r cfg).answers = s.answers.tail := rfl
@[simp] theorem readReg_reads (r : Reg) (cfg : Params) : (s.readReg r cfg).reads = s.reads + 1 := rfl
@[simp] theorem readReg_resetPin (r : Reg) (cfg : Params) : (s.readReg r cfg).resetPin = s.resetPin := rfl
@[simp] theorem readReg_trace (r : Reg) (cfg : Params) : (s.readReg r cfg).trace = s.trace ++ [.rd r (s.answer r cfg)] := rfl

/-! ### State.writeReg -/
@[simp] theorem writeReg_owned (r : Reg) (v : Word) : (s.writeReg r v).owned = s.owned := rfl
@[simp] theorem writeReg_pc (r : Reg) (v : Word) : (s.writeReg r v).pc = s.pc := rfl
@[simp] theorem writeReg_op (r : Reg) (v : Word) : (s.writeReg r v).op = s.op := rfl
@[simp] theorem writeReg_a7 (r : Reg) (v : Word) : (s.writeReg r v).a7 = s.a7 := rfl
@[simp] theorem writeReg_wdata (r : Reg) (v : Word) : (s.writeReg r v).wdata = s.wdata := rfl
@[simp] theorem writeReg_m (r : Reg) (v : Word) : (s.writeReg r v).m = s.m := rfl
@[simp] theorem writeReg_i (r : Reg) (v : Word) : (s.writeReg r v).i = s.i := rfl
@[simp] theorem writeReg_thenRead (r : Reg) (v : Word) : (s.writeReg r v).thenRead = s.thenRead := rfl
@[simp] theorem writeReg_pclk (r : Reg) (v : Word) : (s.writeReg r v).pclk = s.pclk := rfl
@[simp] theorem writeReg_speed (r : Reg) (v : Word) : (s.writeReg r v).speed = s.speed := rfl
@[simp] theorem writeReg_dutySel (r : Reg) (v : Word) : (s.writeReg r v).dutySel = s.dutySel := rfl
@[simp] theorem writeReg_remap (r : Reg) (v : Word) : (s.writeReg r v).remap = s.remap := rfl
@[simp] theorem writeReg_timing (r : Reg) (v : Word) : (s.writeReg r v).timing = s.timing := rfl
@[simp] theorem writeReg_res (r : Reg) (v : Word) : (s.writeReg r v).res = s.res := rfl
@[simp] theorem writeReg_refused (r : Reg) (v : Word) : (s.writeReg r v).refused = s.refused := rfl
@[simp] theorem writeReg_rbuf (r : Reg) (v : Word) : (s.writeReg r v).rbuf = s.rbuf := rfl
@[simp] theorem writeReg_host (r : Reg) (v : Word) : (s.writeReg r v).host = s.host := rfl
@[simp] theorem writeReg_env (r : Reg) (v : Word) : (s.writeReg r v).env = s.env.set r v := rfl
@[simp] theorem writeReg_answers (r : Reg) (v : Word) : (s.writeReg r v).answers = s.answers := rfl
@[simp] theorem writeReg_reads (r : Reg) (v : Word) : (s.writeReg r v).reads = s.reads := rfl
@[simp] theorem writeReg_resetPin (r : Reg) (v : Word) : (s.writeReg r v).resetPin = s.resetPin := rfl
@[simp] theorem writeReg_trace (r : Reg) (v : Word) : (s.writeReg r v).trace = s.trace ++ [.wr r v] := rfl

/-! ### State.storeByte -/
@[simp] theorem storeByte_owned (k : Nat) (b : Byte) : (s.storeByte k b).owned = s.owned := rfl
@[simp] theorem storeByte_pc (k : Nat) (b : Byte) : (s.storeByte k b).pc = s.pc := rfl
@[simp] theorem storeByte_op (k : Nat) (b : Byte) : (s.storeByte k b).op = s.op := rfl
@[simp] theorem storeByte_a7 (k : Nat) (b : Byte) : (s.storeByte k b).a7 = s.a7 := rfl
@[simp] theorem storeByte_wdata (k : Nat) (b : Byte) : (s.storeByte k b).wdata = s.wdata := rfl
@[simp] theorem storeByte_m (k : Nat) (b : Byte) : (s.storeByte k b).m = s.m := rfl
@[simp] theorem storeByte_i (k : Nat) (b : Byte) : (s.storeByte k b).i = s.i := rfl
@[simp] theorem storeByte_thenRead (k : Nat) (b : Byte) : (s.storeByte k b).thenRead = s.thenRead := rfl
@[simp] theorem storeByte_pclk (k : Nat) (b : Byte) : (s.storeByte k b).pclk = s.pclk := rfl
@[simp] theorem storeByte_speed (k : Nat) (b : Byte) : (s.storeByte k b).speed = s.speed := rfl
@[simp] theorem storeByte_dutySel (k : Nat) (b : Byte) : (s.storeByte k b).dutySel = s.dutySel := rfl
@[simp] theorem storeByte_remap (k : Nat) (b : Byte) : (s.storeByte k b).remap = s.remap := rfl
@[simp] theorem storeByte_timing (k : Nat) (b : Byte) : (s.storeByte k b).timing = s.timing := rfl
@[simp] theorem storeByte_res (k : Nat) (b : Byte) : (s.storeByte k b).res = s.res := rfl
@[simp] theorem storeByte_refused (k : Nat) (b : Byte) : (s.storeByte k b).refused = s.refused := rfl
@[simp] theorem storeByte_rbuf (k : Nat) (b : Byte) : (s.storeByte k b).rbuf = s.rbuf.set k b := rfl
@[simp] theorem storeByte_host (k : Nat) (b : Byte) : (s.storeByte k b).host = s.host := rfl
@[simp] theorem storeByte_env (k : Nat) (b : Byte) : (s.storeByte k b).env = s.env := rfl
@[simp] theorem storeByte_answers (k : Nat) (b : Byte) : (s.storeByte k b).answers = s.answers := rfl
@[simp] theorem storeByte_reads (k : Nat) (b : Byte) : (s.storeByte k b).reads = s.reads := rfl
@[simp] theorem storeByte_resetPin (k : Nat) (b : Byte) : (s.storeByte k b).resetPin = s.resetPin := rfl
@[simp] theorem storeByte_trace (k : Nat) (b : Byte) : (s.storeByte k b).trace = s.trace ++ [.hb k b] := rfl

/-! ### State.post -/
@[simp] theorem post_owned (c : ResultCode) : (s.post c).owned = s.owned := rfl
@[simp] theorem post_pc (c : ResultCode) : (s.post c).pc = .idle := rfl
@[simp] theorem post_op (c : ResultCode) : (s.post c).op = s.op := rfl
@[simp] theorem post_a7 (c : ResultCode) : (s.post c).a7 = s.a7 := rfl
@[simp] theorem post_wdata (c : ResultCode) : (s.post c).wdata = s.wdata := rfl
@[simp] theorem post_m (c : ResultCode) : (s.post c).m = s.m := rfl
@[simp] theorem post_i (c : ResultCode) : (s.post c).i = s.i := rfl
@[simp] theorem post_thenRead (c : ResultCode) : (s.post c).thenRead = s.thenRead := rfl
@[simp] theorem post_pclk (c : ResultCode) : (s.post c).pclk = s.pclk := rfl
@[simp] theorem post_speed (c : ResultCode) : (s.post c).speed = s.speed := rfl
@[simp] theorem post_dutySel (c : ResultCode) : (s.post c).dutySel = s.dutySel := rfl
@[simp] theorem post_remap (c : ResultCode) : (s.post c).remap = s.remap := rfl
@[simp] theorem post_timing (c : ResultCode) : (s.post c).timing = s.timing := rfl
@[simp] theorem post_res (c : ResultCode) : (s.post c).res = { s.res with done := true, code := c } := rfl
@[simp] theorem post_refused (c : ResultCode) : (s.post c).refused = s.refused := rfl
@[simp] theorem post_rbuf (c : ResultCode) : (s.post c).rbuf = s.rbuf := rfl
@[simp] theorem post_host (c : ResultCode) : (s.post c).host = s.host := rfl
@[simp] theorem post_env (c : ResultCode) : (s.post c).env = s.env := rfl
@[simp] theorem post_answers (c : ResultCode) : (s.post c).answers = s.answers := rfl
@[simp] theorem post_reads (c : ResultCode) : (s.post c).reads = s.reads := rfl
@[simp] theorem post_resetPin (c : ResultCode) : (s.post c).resetPin = s.resetPin := rfl
@[simp] theorem post_trace (c : ResultCode) : (s.post c).trace = s.trace := rfl

/-! ### State.postTiming -/
@[simp] theorem postTiming_owned (t : Timing) : (s.postTiming t).owned = s.owned := rfl
@[simp] theorem postTiming_pc (t : Timing) : (s.postTiming t).pc = .idle := rfl
@[simp] theorem postTiming_op (t : Timing) : (s.postTiming t).op = s.op := rfl
@[simp] theorem postTiming_a7 (t : Timing) : (s.postTiming t).a7 = s.a7 := rfl
@[simp] theorem postTiming_wdata (t : Timing) : (s.postTiming t).wdata = s.wdata := rfl
@[simp] theorem postTiming_m (t : Timing) : (s.postTiming t).m = s.m := rfl
@[simp] theorem postTiming_i (t : Timing) : (s.postTiming t).i = s.i := rfl
@[simp] theorem postTiming_thenRead (t : Timing) : (s.postTiming t).thenRead = s.thenRead := rfl
@[simp] theorem postTiming_pclk (t : Timing) : (s.postTiming t).pclk = s.pclk := rfl
@[simp] theorem postTiming_speed (t : Timing) : (s.postTiming t).speed = s.speed := rfl
@[simp] theorem postTiming_dutySel (t : Timing) : (s.postTiming t).dutySel = s.dutySel := rfl
@[simp] theorem postTiming_remap (t : Timing) : (s.postTiming t).remap = s.remap := rfl
@[simp] theorem postTiming_timing (t : Timing) : (s.postTiming t).timing = s.timing := rfl
@[simp] theorem postTiming_res (t : Timing) : (s.postTiming t).res = ⟨true, .ok, t.div, t.fs, t.duty⟩ := rfl
@[simp] theorem postTiming_refused (t : Timing) : (s.postTiming t).refused = s.refused := rfl
@[simp] theorem postTiming_rbuf (t : Timing) : (s.postTiming t).rbuf = s.rbuf := rfl
@[simp] theorem postTiming_host (t : Timing) : (s.postTiming t).host = s.host := rfl
@[simp] theorem postTiming_env (t : Timing) : (s.postTiming t).env = s.env := rfl
@[simp] theorem postTiming_answers (t : Timing) : (s.postTiming t).answers = s.answers := rfl
@[simp] theorem postTiming_reads (t : Timing) : (s.postTiming t).reads = s.reads := rfl
@[simp] theorem postTiming_resetPin (t : Timing) : (s.postTiming t).resetPin = s.resetPin := rfl
@[simp] theorem postTiming_trace (t : Timing) : (s.postTiming t).trace = s.trace := rfl

/-! ### State.takeCommand -/
@[simp] theorem takeCommand_owned : s.takeCommand.owned = s.owned := rfl
@[simp] theorem takeCommand_pc : s.takeCommand.pc = s.pc := rfl
@[simp] theorem takeCommand_op : s.takeCommand.op = s.op := rfl
@[simp] theorem takeCommand_a7 : s.takeCommand.a7 = s.a7 := rfl
@[simp] theorem takeCommand_wdata : s.takeCommand.wdata = s.wdata := rfl
@[simp] theorem takeCommand_m : s.takeCommand.m = s.m := rfl
@[simp] theorem takeCommand_i : s.takeCommand.i = s.i := rfl
@[simp] theorem takeCommand_thenRead : s.takeCommand.thenRead = s.thenRead := rfl
@[simp] theorem takeCommand_pclk : s.takeCommand.pclk = s.pclk := rfl
@[simp] theorem takeCommand_speed : s.takeCommand.speed = s.speed := rfl
@[simp] theorem takeCommand_dutySel : s.takeCommand.dutySel = s.dutySel := rfl
@[simp] theorem takeCommand_remap : s.takeCommand.remap = s.remap := rfl
@[simp] theorem takeCommand_timing : s.takeCommand.timing = s.timing := rfl
@[simp] theorem takeCommand_res : s.takeCommand.res = s.res := rfl
@[simp] theorem takeCommand_refused : s.takeCommand.refused = s.refused := rfl
@[simp] theorem takeCommand_rbuf : s.takeCommand.rbuf = s.rbuf := rfl
@[simp] theorem takeCommand_host : s.takeCommand.host = s.host.tail := rfl
@[simp] theorem takeCommand_env : s.takeCommand.env = s.env := rfl
@[simp] theorem takeCommand_answers : s.takeCommand.answers = s.answers := rfl
@[simp] theorem takeCommand_reads : s.takeCommand.reads = s.reads := rfl
@[simp] theorem takeCommand_resetPin : s.takeCommand.resetPin = s.resetPin := rfl
@[simp] theorem takeCommand_trace : s.takeCommand.trace = s.trace := rfl

/-! ### State.refuse -/
@[simp] theorem refuse_owned : s.refuse.owned = s.owned := rfl
@[simp] theorem refuse_pc : s.refuse.pc = s.pc := rfl
@[simp] theorem refuse_op : s.refuse.op = s.op := rfl
@[simp] theorem refuse_a7 : s.refuse.a7 = s.a7 := rfl
@[simp] theorem refuse_wdata : s.refuse.wdata = s.wdata := rfl
@[simp] theorem refuse_m : s.refuse.m = s.m := rfl
@[simp] theorem refuse_i : s.refuse.i = s.i := rfl
@[simp] theorem refuse_thenRead : s.refuse.thenRead = s.thenRead := rfl
@[simp] theorem refuse_pclk : s.refuse.pclk = s.pclk := rfl
@[simp] theorem refuse_speed : s.refuse.speed = s.speed := rfl
@[simp] theorem refuse_dutySel : s.refuse.dutySel = s.dutySel := rfl
@[simp] theorem refuse_remap : s.refuse.remap = s.remap := rfl
@[simp] theorem refuse_timing : s.refuse.timing = s.timing := rfl
@[simp] theorem refuse_res : s.refuse.res = s.res := rfl
@[simp] theorem refuse_refused : s.refuse.refused = true := rfl
@[simp] theorem refuse_rbuf : s.refuse.rbuf = s.rbuf := rfl
@[simp] theorem refuse_host : s.refuse.host = s.host.tail := rfl
@[simp] theorem refuse_env : s.refuse.env = s.env := rfl
@[simp] theorem refuse_answers : s.refuse.answers = s.answers := rfl
@[simp] theorem refuse_reads : s.refuse.reads = s.reads := rfl
@[simp] theorem refuse_resetPin : s.refuse.resetPin = s.resetPin := rfl
@[simp] theorem refuse_trace : s.refuse.trace = s.trace := rfl

/-! ### State.clockPin -/
@[simp] theorem clockPin_owned : s.clockPin.owned = s.owned := rfl
@[simp] theorem clockPin_pc : s.clockPin.pc = s.pc := rfl
@[simp] theorem clockPin_op : s.clockPin.op = s.op := rfl
@[simp] theorem clockPin_a7 : s.clockPin.a7 = s.a7 := rfl
@[simp] theorem clockPin_wdata : s.clockPin.wdata = s.wdata := rfl
@[simp] theorem clockPin_m : s.clockPin.m = s.m := rfl
@[simp] theorem clockPin_i : s.clockPin.i = s.i := rfl
@[simp] theorem clockPin_thenRead : s.clockPin.thenRead = s.thenRead := rfl
@[simp] theorem clockPin_pclk : s.clockPin.pclk = s.pclk := rfl
@[simp] theorem clockPin_speed : s.clockPin.speed = s.speed := rfl
@[simp] theorem clockPin_dutySel : s.clockPin.dutySel = s.dutySel := rfl
@[simp] theorem clockPin_remap : s.clockPin.remap = s.remap := rfl
@[simp] theorem clockPin_timing : s.clockPin.timing = s.timing := rfl
@[simp] theorem clockPin_res : s.clockPin.res = s.res := rfl
@[simp] theorem clockPin_refused : s.clockPin.refused = s.refused := rfl
@[simp] theorem clockPin_rbuf : s.clockPin.rbuf = s.rbuf := rfl
@[simp] theorem clockPin_host : s.clockPin.host = s.host := rfl
@[simp] theorem clockPin_env : s.clockPin.env = s.env := rfl
@[simp] theorem clockPin_answers : s.clockPin.answers = s.answers := rfl
@[simp] theorem clockPin_reads : s.clockPin.reads = s.reads := rfl
@[simp] theorem clockPin_resetPin : s.clockPin.resetPin = s.resetPin.tail := rfl
@[simp] theorem clockPin_trace : s.clockPin.trace = s.trace := rfl

/-! ### State.latchTiming -/
@[simp] theorem latchTiming_owned (cfg : Params) : (s.latchTiming cfg).owned = s.owned := rfl
@[simp] theorem latchTiming_pc (cfg : Params) : (s.latchTiming cfg).pc = s.pc := rfl
@[simp] theorem latchTiming_op (cfg : Params) : (s.latchTiming cfg).op = s.op := rfl
@[simp] theorem latchTiming_a7 (cfg : Params) : (s.latchTiming cfg).a7 = s.a7 := rfl
@[simp] theorem latchTiming_wdata (cfg : Params) : (s.latchTiming cfg).wdata = s.wdata := rfl
@[simp] theorem latchTiming_m (cfg : Params) : (s.latchTiming cfg).m = s.m := rfl
@[simp] theorem latchTiming_i (cfg : Params) : (s.latchTiming cfg).i = s.i := rfl
@[simp] theorem latchTiming_thenRead (cfg : Params) : (s.latchTiming cfg).thenRead = s.thenRead := rfl
@[simp] theorem latchTiming_pclk (cfg : Params) : (s.latchTiming cfg).pclk = s.pclk := rfl
@[simp] theorem latchTiming_speed (cfg : Params) : (s.latchTiming cfg).speed = s.speed := rfl
@[simp] theorem latchTiming_dutySel (cfg : Params) : (s.latchTiming cfg).dutySel = s.dutySel := rfl
@[simp] theorem latchTiming_remap (cfg : Params) : (s.latchTiming cfg).remap = s.remap := rfl
@[simp] theorem latchTiming_timing (cfg : Params) : (s.latchTiming cfg).timing = resolveTiming cfg s.pclk s.speed s.dutySel := rfl
@[simp] theorem latchTiming_res (cfg : Params) : (s.latchTiming cfg).res = s.res := rfl
@[simp] theorem latchTiming_refused (cfg : Params) : (s.latchTiming cfg).refused = s.refused := rfl
@[simp] theorem latchTiming_rbuf (cfg : Params) : (s.latchTiming cfg).rbuf = s.rbuf := rfl
@[simp] theorem latchTiming_host (cfg : Params) : (s.latchTiming cfg).host = s.host := rfl
@[simp] theorem latchTiming_env (cfg : Params) : (s.latchTiming cfg).env = s.env := rfl
@[simp] theorem latchTiming_answers (cfg : Params) : (s.latchTiming cfg).answers = s.answers := rfl
@[simp] theorem latchTiming_reads (cfg : Params) : (s.latchTiming cfg).reads = s.reads := rfl
@[simp] theorem latchTiming_resetPin (cfg : Params) : (s.latchTiming cfg).resetPin = s.resetPin := rfl
@[simp] theorem latchTiming_trace (cfg : Params) : (s.latchTiming cfg).trace = s.trace := rfl

/-! ### State.release -/
@[simp] theorem release_owned : s.release.owned = false := rfl
@[simp] theorem release_pc : s.release.pc = s.pc := rfl
@[simp] theorem release_op : s.release.op = s.op := rfl
@[simp] theorem release_a7 : s.release.a7 = s.a7 := rfl
@[simp] theorem release_wdata : s.release.wdata = s.wdata := rfl
@[simp] theorem release_m : s.release.m = s.m := rfl
@[simp] theorem release_i : s.release.i = s.i := rfl
@[simp] theorem release_thenRead : s.release.thenRead = s.thenRead := rfl
@[simp] theorem release_pclk : s.release.pclk = s.pclk := rfl
@[simp] theorem release_speed : s.release.speed = s.speed := rfl
@[simp] theorem release_dutySel : s.release.dutySel = s.dutySel := rfl
@[simp] theorem release_remap : s.release.remap = s.remap := rfl
@[simp] theorem release_timing : s.release.timing = s.timing := rfl
@[simp] theorem release_res : s.release.res = s.res := rfl
@[simp] theorem release_refused : s.release.refused = s.refused := rfl
@[simp] theorem release_rbuf : s.release.rbuf = s.rbuf := rfl
@[simp] theorem release_host : s.release.host = s.host := rfl
@[simp] theorem release_env : s.release.env = s.env := rfl
@[simp] theorem release_answers : s.release.answers = s.answers := rfl
@[simp] theorem release_reads : s.release.reads = s.reads := rfl
@[simp] theorem release_resetPin : s.release.resetPin = s.resetPin := rfl
@[simp] theorem release_trace : s.release.trace = s.trace := rfl

/-! ### State.blockReset -/
@[simp] theorem blockReset_owned : s.blockReset.owned = State.reset.owned := rfl
@[simp] theorem blockReset_pc : s.blockReset.pc = State.reset.pc := rfl
@[simp] theorem blockReset_op : s.blockReset.op = State.reset.op := rfl
@[simp] theorem blockReset_a7 : s.blockReset.a7 = State.reset.a7 := rfl
@[simp] theorem blockReset_wdata : s.blockReset.wdata = State.reset.wdata := rfl
@[simp] theorem blockReset_m : s.blockReset.m = State.reset.m := rfl
@[simp] theorem blockReset_i : s.blockReset.i = State.reset.i := rfl
@[simp] theorem blockReset_thenRead : s.blockReset.thenRead = State.reset.thenRead := rfl
@[simp] theorem blockReset_pclk : s.blockReset.pclk = State.reset.pclk := rfl
@[simp] theorem blockReset_speed : s.blockReset.speed = State.reset.speed := rfl
@[simp] theorem blockReset_dutySel : s.blockReset.dutySel = State.reset.dutySel := rfl
@[simp] theorem blockReset_remap : s.blockReset.remap = State.reset.remap := rfl
@[simp] theorem blockReset_timing : s.blockReset.timing = State.reset.timing := rfl
@[simp] theorem blockReset_res : s.blockReset.res = State.reset.res := rfl
@[simp] theorem blockReset_refused : s.blockReset.refused = State.reset.refused := rfl
@[simp] theorem blockReset_rbuf : s.blockReset.rbuf = s.rbuf := rfl
@[simp] theorem blockReset_host : s.blockReset.host = s.host := rfl
@[simp] theorem blockReset_env : s.blockReset.env = s.env := rfl
@[simp] theorem blockReset_answers : s.blockReset.answers = s.answers := rfl
@[simp] theorem blockReset_reads : s.blockReset.reads = s.reads := rfl
@[simp] theorem blockReset_resetPin : s.blockReset.resetPin = s.resetPin := rfl
@[simp] theorem blockReset_trace : s.blockReset.trace = s.trace := rfl

end Sys2Proof.Machine
end

