-- ==== Sys2Proof/Laws/Ops.lean ====
section
/-! SUPPORT. One lemma per shared operation that says all it can do; the provers cite these instead of unfolding. -/

namespace Sys2Proof.Machine

/-! ### The environment's registers -/

@[simp] theorem env_get_set (e : EnvRegs) (r : Reg) (v : Word) : (e.set r v).get r = v := by
  cases r <;> rfl

theorem env_get_set_other (e : EnvRegs) (r q : Reg) (v : Word) (h : q ≠ r) : (e.set r v).get q = e.get q := by
  cases r <;> cases q <;> first | rfl | exact absurd rfl h

@[simp] theorem env_set_set (e : EnvRegs) (r : Reg) (v w : Word) : (e.set r v).set r w = e.set r w := by
  cases r <;> rfl

/-! ### The register map the spec takes, in numbers (R57, R81-R88) -/

theorem peMask_eq : peMask = 0x0001#32 := rfl
theorem startMask_eq : startMask = 0x0100#32 := rfl
theorem stopMask_eq : stopMask = 0x0200#32 := rfl
theorem ackMask_eq : ackMask = 0x0400#32 := rfl
theorem swrstMask_eq : swrstMask = 0x8000#32 := rfl
theorem freqMask_eq : freqMask = 0x003F#32 := rfl
theorem timingMask_eq : timingMask = 0xCFFF#32 := rfl
theorem i2c1enMask_eq : i2c1enMask = 0x00200000#32 := rfl
theorem i2c1rstMask_eq : i2c1rstMask = 0x00200000#32 := rfl
theorem afioenMask_eq : afioenMask = 0x00000001#32 := rfl
theorem rmMask_eq : rmMask = 0x00400002#32 := rfl

theorem widthMask_eq (r : Reg) : widthMask r = if regWidth r = 16 then 0x0000FFFF#32 else 0xFFFFFFFF#32 := by
  cases r <;> rfl

theorem remapField_eq (r : BitVec 2) :
    remapField r = (r.extractLsb' 1 1).setWidth 32 <<< 22 ||| (r.extractLsb' 0 1).setWidth 32 <<< 1 := rfl

theorem freqField_eq (pclk : Word) : freqField pclk = BitVec.ofNat 32 (freqValue params pclk) :=
  BitVec.shiftLeft_zero _

theorem timingField_eq (t : Timing) :
    timingField t = t.fs.setWidth 32 <<< 15 ||| t.duty.setWidth 32 <<< 14 ||| (t.div &&& 0x0FFF#32) := by
  unfold timingField
  exact congrArg _ (BitVec.shiftLeft_zero _)

/-! ### Answers -/

theorem answer_value {s : State} {v : Word} {rest : List Answer} (h : s.answers = .value v :: rest) (r : Reg) :
    s.answer r = v &&& widthMask r := by
  simp [State.answer, h]

theorem answer_held {s : State} {rest : List Answer} (h : s.answers = .held :: rest) (r : Reg) :
    s.answer r = s.env.get r &&& widthMask r := by
  simp [State.answer, h]

theorem answer_free {s : State} (h : s.answers = []) (r : Reg) :
    s.answer r = Config.envAnswer s.reads &&& widthMask r := by
  simp [State.answer, h]

/-- R33, R57: an answer is `REGW(r)` bits wide. -/
@[simp] theorem answer_width (s : State) (r : Reg) (cfg : Params) :
    s.answer r cfg &&& widthMask r cfg = s.answer r cfg := by
  simp [State.answer, BitVec.and_assoc]

/-- An answer depends on the scripted answers, the environment's registers and the read counter alone. -/
theorem answer_congr {s t : State} (ha : t.answers = s.answers) (he : t.env = s.env) (hr : t.reads = s.reads)
    (r : Reg) : t.answer r = s.answer r := by
  simp [State.answer, ha, he, hr]

/-! ### One micro-operation written out: the states the rules name -/

/-- The state after a read of `r` and a write of `w` to it, with `pc` at `p`. -/
theorem modifyReg_eq (s : State) (r : Reg) (f : Word → Word) :
    s.modifyReg r f =
      { s with
        env := s.env.set r (f (s.answer r))
        answers := s.answers.tail
        reads := s.reads + 1
        trace := s.trace ++ [.rd r (s.answer r), .wr r (f (s.answer r))] } := by
  simp [State.modifyReg, State.writeReg, State.readReg]

/-- The state after a snapshot. -/
theorem afterSnap_eq (s : State) :
    s.afterSnap =
      { s with
        env := (s.env.set .star1 s.snap1).set .star2 s.snap2
        answers := s.answers.tail.tail
        reads := s.reads + 2
        trace := s.trace ++ [.rd .star1 s.snap1, .rd .star2 s.snap2] } := by
  simp [State.afterSnap, State.readReg, State.snap1, State.snap2]

/-- R140, R149: one iteration of the unbounded poll. -/
theorem poll_eq {cfg : Params} (h : cfg.pollBudget = none) (s : State) (P : Word → Word → Bool) (go : State → State) :
    s.poll P go cfg =
      .next (if P (s.snap1 cfg) (s.snap2 cfg) then go (s.afterSnap cfg) else s.afterSnap cfg) := by
  cases cfg; cases h; rfl

/-- R140: a poll iteration moves on or leaves `pc`, and reads STAR1 and then STAR2 either way. -/
theorem poll_cases (s : State) (P : Word → Word → Bool) (go : State → State) :
    (P s.snap1 s.snap2 = true ∧ s.poll P go = .next (go s.afterSnap)) ∨
    (P s.snap1 s.snap2 = false ∧ s.poll P go = .next s.afterSnap) := by
  rw [poll_eq rfl]
  cases h : P s.snap1 s.snap2 <;> simp

/-! ### The port -/

/-- What the port does with the command that stands at it. -/
theorem atPort_cons {s : State} {c : Command} {rest : List Command} (h : s.host = c :: rest) (i : Instr)
    (accept : Operands → State → State) :
    s.atPort i accept =
      match refusalOf i s.owned c.operands with
      | some _ => .next s.refuse
      | none => .next (accept c.operands s.takeCommand) := by
  cases s; cases h; rfl

/-- The port answers a next state in two ways only: the command is refused, or it is accepted. -/
theorem atPort_next {s t : State} {i : Instr} {accept : Operands → State → State}
    (h : s.atPort i accept = .next t) :
    ∃ c rest, s.host = c :: rest ∧
      ((refusalOf i s.owned c.operands ≠ none ∧ t = s.refuse) ∨
       (refusalOf i s.owned c.operands = none ∧ t = accept c.operands s.takeCommand)) := by
  unfold State.atPort at h
  split at h
  · cases h
  · rename_i c rest hc
    refine ⟨c, rest, hc, ?_⟩
    split at h <;> rename_i hr <;> cases h
    · exact .inl ⟨by simp [hr], rfl⟩
    · exact .inr ⟨hr, rfl⟩

/-- R184, R185: a decoded command is admitted exactly when its ownership, speed and length checks pass. -/
theorem refusalOf_eq_none (i : Instr) (owned : Bool) (o : Operands) :
    refusalOf i owned o = none ↔ stateOk i owned = true ∧ WellFormed params i o = true := by
  unfold refusalOf WellFormed
  cases stateOk i owned <;> cases speedOk params i o <;> cases lenOk params i o <;> simp

/-- Under the unbounded `MAX_XFER_LEN` the length check passes always (R184: RF_LEN never applies). -/
@[simp] theorem lenOk_params (i : Instr) (o : Operands) : lenOk params i o = true := by
  cases i <;> rfl

/-- R107: the speeds RESOLVE admits. -/
theorem speedOk_resolve (d : Duty) (o : Operands) :
    speedOk params (.resolve d) o = true ↔ 1 ≤ o.speed.toNat ∧ o.speed.toNat ≤ 1000000 := by
  simp only [speedOk, Bool.and_eq_true, decide_eq_true_eq]
  exact Iff.rfl

/-- R107: the speeds OPEN admits. -/
theorem speedOk_open (r : BitVec 2) (d : Duty) (o : Operands) :
    speedOk params (.openEngine r d) o = true ↔ 1 ≤ o.speed.toNat ∧ o.speed.toNat ≤ 1000000 :=
  speedOk_resolve d o

/-- The other commands take no speed. -/
theorem speedOk_other {i : Instr} (h : i.opcode ≠ .resolve) (h' : i.opcode ≠ .openEngine) (o : Operands) :
    speedOk params i o = true := by
  cases i <;> first | rfl | exact absurd rfl h | exact absurd rfl h'

/-- When a RESOLVE is admitted: in either ownership state, with an admitted speed (R106). -/
theorem resolve_admitted (d : Duty) (owned : Bool) (o : Operands) :
    refusalOf (.resolve d) owned o = none ↔ 1 ≤ o.speed.toNat ∧ o.speed.toNat ≤ 1000000 := by
  simp [refusalOf_eq_none, stateOk, WellFormed, speedOk_resolve]

/-- When an OPEN is admitted (R122). -/
theorem open_admitted (r : BitVec 2) (d : Duty) (owned : Bool) (o : Operands) :
    refusalOf (.openEngine r d) owned o = none ↔
      owned = false ∧ 1 ≤ o.speed.toNat ∧ o.speed.toNat ≤ 1000000 := by
  simp [refusalOf_eq_none, stateOk, WellFormed, speedOk_open]

/-- When a CLOSE or a transaction is admitted: exactly with `owned = 1` (R126, R155, R160, R170). -/
theorem owned_admitted {i : Instr} (h : i.opcode ≠ .resolve) (h' : i.opcode ≠ .openEngine) (owned : Bool)
    (o : Operands) : refusalOf i owned o = none ↔ owned = true := by
  rw [refusalOf_eq_none, WellFormed, speedOk_other h h', lenOk_params]
  cases i <;> first | exact absurd rfl h | exact absurd rfl h' | simp [stateOk]

/-! ### Steps -/

/-- What one step can be: the block's reset, waiting at IDLE, a word that does not decode, or one `exec`. -/
theorem step_cases {s t : State} (h : step s = .next t) :
    (s.resetAsserted = true ∧ t = s.clockPin.blockReset) ∨
    (s.resetAsserted = false ∧ s.pc = .idle ∧ s.host = [] ∧ t = s.clockPin) ∨
    (s.resetAsserted = false ∧ s.pc = .idle ∧
      ∃ c rest reason, s.host = c :: rest ∧ decode c.word = .error reason ∧ t = s.clockPin.refuse) ∨
    (s.resetAsserted = false ∧ s.pc = .idle ∧
      ∃ c rest i, s.host = c :: rest ∧ decode c.word = .ok i ∧ exec i s.clockPin = .next t) ∨
    (s.resetAsserted = false ∧ s.pc ≠ .idle ∧ exec s.current s.clockPin = .next t) := by
  unfold step stepBy at h
  split at h
  · rename_i hr; cases h; exact .inl ⟨hr, rfl⟩
  · rename_i hr
    have hr : s.resetAsserted = false := by simpa using hr
    refine .inr ?_
    unfold State.runBy at h
    split at h
    · rename_i hp
      have hp : s.pc = .idle := hp
      split at h
      · rename_i hh; cases h; exact .inl ⟨hr, hp, hh, rfl⟩
      · rename_i c rest hh
        split at h
        · rename_i e he; cases h; exact .inr (.inl ⟨hr, hp, c, rest, e, hh, he, rfl⟩)
        · rename_i i hi; exact .inr (.inr (.inl ⟨hr, hp, c, rest, i, hh, hi, h⟩))
    all_goals
      rename_i hp
      refine .inr (.inr (.inr ⟨hr, ?_, h⟩))
      intro hidle
      have : s.clockPin.pc = .idle := hidle
      rw [hp] at this
      cases this

/-- R35: the commands' meanings are those of the model at the parameters the spec takes. -/
theorem exec_eq_execAt (i : Instr) (s : State) : exec i s = execAt params i s := by
  cases i <;> rfl

end Sys2Proof.Machine
end

