-- ==== Sys2Proof/Laws/Step.lean ====
section
/-! SUPPORT. What one step can do, said once: `step_next` lists the six ways a step answers a next state, with the running
phases gathered in `phaseStep` and the acceptances in `acceptance`. A claim about all steps is proved from it by cases. -/

namespace Sys2Proof.Machine

/-! ### The shapes of `exec` -/

/-- What the acceptance of a command latches. -/
def acceptance : Instr → Operands → State → State
  | .resolve d => acceptResolve d
  | .openEngine r d => acceptOpen r d
  | .closeEngine => acceptClose
  | .write a => acceptWrite a
  | .read a => acceptRead a
  | .writeRead a => acceptWriteRead a

/-- The micro-operation of the phase `pc` holds, whichever command runs it. -/
def phaseStep (s : State) : StepOutcome :=
  match s.pc with
  | .idle => .fault .noCommand
  | .s1 => .next (s.postTiming (resolveTiming params s.pclk s.speed s.dutySel))
  | .o p => .next (openPhase p s)
  | .c1 => .next (closePhase s)
  | .w p => writePhase p s
  | .r p => readPhase p s

/-- At IDLE, `exec` is what the port does with the command. -/
theorem exec_idle {s : State} (h : s.pc = .idle) (i : Instr) : exec i s = s.atPort i (acceptance i) := by
  rw [exec_eq_execAt]
  cases i <;> simp [execAt, execResolveAt, execOpenEngineAt, execCloseEngineAt, execWriteAt, execReadAt,
    execWriteReadAt, h, acceptance]

/-- In any other phase, a next state of `exec` is that of the phase. -/
theorem exec_running {s t : State} {i : Instr} (hp : s.pc ≠ .idle) (h : exec i s = .next t) :
    phaseStep s = .next t := by
  rw [exec_eq_execAt] at h
  cases i <;>
    simp only [execAt, execResolveAt, execOpenEngineAt, execCloseEngineAt, execWriteAt, execReadAt,
      execWriteReadAt] at h <;>
    split at h <;> rename_i hpc <;> first | exact absurd hpc hp | (simp only [phaseStep, hpc]; exact h) | cases h

/-- A command with no reason to be refused is accepted. -/
theorem exec_accepted {s : State} {c : Command} {rest : List Command} {i : Instr} (hp : s.pc = .idle)
    (hh : s.host = c :: rest) (hr : refusalOf i s.owned c.operands = none) :
    exec i s = .next (acceptance i c.operands s.takeCommand) := by
  rw [exec_idle hp, atPort_cons hh, hr]

/-- A command with a reason to be refused sets the mark and is gone (R184). -/
theorem exec_refused {s : State} {c : Command} {rest : List Command} {i : Instr} {e : RefuseReason}
    (hp : s.pc = .idle) (hh : s.host = c :: rest) (hr : refusalOf i s.owned c.operands = some e) :
    exec i s = .next s.refuse := by
  rw [exec_idle hp, atPort_cons hh, hr]

/-! ### The shapes of a step -/

/-- Everything a step that answers a next state can be. -/
theorem step_next {s t : State} (h : step s = .next t) :
    (s.resetAsserted = true ∧ t = s.clockPin.blockReset) ∨
    (s.resetAsserted = false ∧ s.pc = .idle ∧ s.host = [] ∧ t = s.clockPin) ∨
    (s.resetAsserted = false ∧ s.pc = .idle ∧
      (∃ c rest, s.host = c :: rest ∧ portRefusal c s.owned ≠ none) ∧ t = s.clockPin.refuse) ∨
    (s.resetAsserted = false ∧ s.pc = .idle ∧
      ∃ c rest i, s.host = c :: rest ∧ decode c.word = .ok i ∧ refusalOf i s.owned c.operands = none ∧
        t = acceptance i c.operands s.clockPin.takeCommand) ∨
    (s.resetAsserted = false ∧ s.pc ≠ .idle ∧ exec s.current s.clockPin = .next t ∧
      phaseStep s.clockPin = .next t) := by
  rcases step_cases h with h | h | ⟨hr, hp, c, rest, e, hh, hd, ht⟩ | ⟨hr, hp, c, rest, i, hh, hd, he⟩ | ⟨hr, hp, he⟩
  · exact .inl h
  · exact .inr (.inl h)
  · exact .inr (.inr (.inl ⟨hr, hp, ⟨c, rest, hh, by simp [portRefusal, hd]⟩, ht⟩))
  · refine .inr (.inr ?_)
    have hp' : s.clockPin.pc = .idle := hp
    rw [exec_idle hp'] at he
    obtain ⟨c', rest', hh', hcase⟩ := atPort_next he
    have heq : c' :: rest' = c :: rest := hh'.symm.trans hh
    cases heq
    rcases hcase with ⟨hne, ht⟩ | ⟨hnone, ht⟩
    · exact .inl ⟨hr, hp, ⟨c, rest, hh, by simpa [portRefusal, hd] using hne⟩, ht⟩
    · exact .inr (.inl ⟨hr, hp, c, rest, i, hh, hd, hnone, ht⟩)
  · exact .inr (.inr (.inr (.inr ⟨hr, hp, he, exec_running hp he⟩)))

/-- A step whose reset input is not asserted. -/
theorem step_eq_run {s : State} (h : s.resetAsserted = false) : step s = s.clockPin.runBy exec := by
  simp [step, stepBy, h]

/-- A step of an idle block with a command at its port that decodes is one `exec` of it. -/
theorem step_port {s : State} {c : Command} {rest : List Command} {i : Instr} (h : s.resetAsserted = false)
    (hp : s.pc = .idle) (hh : s.host = c :: rest) (hd : decode c.word = .ok i) : step s = exec i s.clockPin := by
  rw [step_eq_run h]
  simp [State.runBy, hp, hh, hd]

/-! ### Polls written out -/

/-- A poll that moves on by `pc` alone. -/
theorem poll_goto (s : State) (P : Word → Word → Bool) (p : Phase) :
    s.poll P (fun t => t.goto p) = .next (s.afterPoll (if P s.snap1 s.snap2 then p else s.pc) s.i) := by
  rw [poll_eq rfl]
  split <;> simp [State.goto, afterSnap_eq, State.afterPoll]

/-- The poll of W5. -/
theorem poll_startWriteData (s : State) (P : Word → Word → Bool) :
    s.poll P State.startWriteData =
      .next (if P s.snap1 s.snap2 then s.afterPoll (if 0 < s.wdata.length then .w .w6t else .w .w7) 0
        else s.afterPoll s.pc s.i) := by
  rw [poll_eq rfl]
  split <;> simp [State.startWriteData, State.goto, State.setIndex, afterSnap_eq, State.afterPoll]

/-- The poll of R5. -/
theorem poll_startReadData (s : State) (P : Word → Word → Bool) :
    s.poll P State.startReadData =
      .next (if P s.snap1 s.snap2 then s.afterPoll (if 0 < s.m then .r .r6r else .r .r7) 0
        else s.afterPoll s.pc s.i) := by
  rw [poll_eq rfl]
  split <;> simp [State.startReadData, State.goto, State.setIndex, afterSnap_eq, State.afterPoll]

/-- A read-modify-write and a move of `pc`. -/
theorem modifyReg_goto (s : State) (r : Reg) (f : Word → Word) (p : Phase) :
    (s.modifyReg r f).goto p = s.afterRmw r (f (s.answer r)) p := by
  simp [modifyReg_eq, State.goto, State.afterRmw]

/-- R126: what C1 leaves. -/
theorem closePhase_eq (s : State) :
    closePhase s =
      { s.afterRmw .ctlr1 (s.answer .ctlr1 &&& ~~~peMask) .idle with
        owned := false, res := { s.res with done := true, code := .ok } } := by
  simp [closePhase, State.clearBits, modifyReg_eq, State.release, State.post, State.afterRmw]

/-! ### What does not depend on the reset input -/

@[simp] theorem answer_clockPin (s : State) (r : Reg) (cfg : Params) :
    s.clockPin.answer r cfg = s.answer r cfg := rfl
@[simp] theorem snap1_clockPin (s : State) (cfg : Params) : s.clockPin.snap1 cfg = s.snap1 cfg := rfl
@[simp] theorem snap2_clockPin (s : State) (cfg : Params) : s.clockPin.snap2 cfg = s.snap2 cfg := rfl
@[simp] theorem current_clockPin (s : State) : s.clockPin.current = s.current := rfl
@[simp] theorem answer_latchTiming (s : State) (r : Reg) : s.latchTiming.answer r = s.answer r := rfl

/-! ### The events of a step -/

/-- The register a phase of OPEN reads and writes. -/
def openReg : OpenPhase → Reg
  | .o1 => .apb1pcenr
  | .o2 | .o3 => .apb1prstr
  | .o4 => .apb2pcenr
  | .o5 | .o6 | .o10 | .o11 => .ctlr1
  | .o7 => .pcfr1
  | .o8 => .ctlr2
  | .o9 => .ckcfgr

/-- The value a phase of OPEN writes, when it has read `v`. -/
def openValue (s : State) (p : OpenPhase) (v : Word) : Word :=
  match p with
  | .o1 => v ||| i2c1enMask
  | .o2 => v ||| i2c1rstMask
  | .o3 => v &&& ~~~i2c1rstMask
  | .o4 => v ||| afioenMask
  | .o5 => v ||| swrstMask
  | .o6 => v &&& ~~~swrstMask
  | .o7 => (v &&& ~~~rmMask) ||| (remapField s.remap &&& rmMask)
  | .o8 => (v &&& ~~~freqMask) ||| (freqField s.pclk &&& freqMask)
  | .o9 => (v &&& ~~~timingMask) ||| (timingField (resolveTiming params s.pclk s.speed s.dutySel) &&& timingMask)
  | .o10 => v ||| peMask
  | .o11 => v ||| ackMask

/-- The two events of a read-modify-write. -/
def rmwEvents (s : State) (r : Reg) (f : Word → Word) : List Event := [.rd r (s.answer r), .wr r (f (s.answer r))]

/-- The two events of a poll iteration. -/
def snapEvents (s : State) : List Event := [.rd .star1 s.snap1, .rd .star2 s.snap2]

/-- What the phase `pc` holds records. -/
def phaseEvents (s : State) : List Event :=
  match s.pc with
  | .idle | .s1 => []
  | .o p => rmwEvents s (openReg p) (openValue s p)
  | .c1 => rmwEvents s .ctlr1 (fun v => v &&& ~~~peMask)
  | .w .w1 | .w .w3 | .w .w5 | .w .w6t | .w .w7 => snapEvents s
  | .w .w2 => rmwEvents s .ctlr1 (fun v => v ||| startMask)
  | .w .w4 => [.wr .datar (dataWord (addressByte s.a7 0#1))]
  | .w .w6d => (s.wbufByte s.i).toList.map (fun b => .wr .datar (dataWord b))
  | .w .w8 => rmwEvents s .ctlr1 (fun v => v ||| stopMask)
  | .w .w9 => [.rd .star1 (s.answer .star1)]
  | .r .r1 | .r .r3 | .r .r5 | .r .r6r => snapEvents s
  | .r .r2 => rmwEvents s .ctlr1 (fun v => v ||| startMask)
  | .r .r4 => [.wr .datar (dataWord (addressByte s.a7 1#1))]
  | .r .r6d => [.rd .datar (s.answer .datar), .hb s.i (dataByte (s.answer .datar))]
  | .r .r7 => rmwEvents s .ctlr1 (fun v => v ||| stopMask)
  | .r .r8 => [.rd .star1 (s.answer .star1)]

/-- A phase appends its events to the trace. -/
theorem phaseStep_trace {s t : State} (h : phaseStep s = .next t) : t.trace = s.trace ++ phaseEvents s := by
  unfold phaseStep at h
  split at h <;> rename_i hp
  · cases h
  · cases h; simp [phaseEvents, hp]
  · rename_i p
    cases h
    cases p <;>
      simp [phaseEvents, hp, openPhase, rmwEvents, openReg, openValue, State.setBits, State.clearBits,
        State.writeField, modifyReg_eq]
  · cases h; simp [phaseEvents, hp, rmwEvents, closePhase_eq, State.afterRmw]
  · rename_i p
    cases p <;> simp only [writePhase, poll_goto, poll_startWriteData, State.setBits, modifyReg_goto] at h
    case w6d =>
      split at h
      · rename_i b hb; cases h; simp [phaseEvents, hp, hb, State.sendByte]
      · cases h
    all_goals cases h
    all_goals simp only [phaseEvents, hp, snapEvents, rmwEvents]
    all_goals first
      | rfl
      | (split <;> rfl)
      | (unfold State.endWrite; split <;> rfl)
  · rename_i p
    cases p <;> simp only [readPhase, poll_goto, poll_startReadData, State.setBits, modifyReg_goto] at h
    case r6d =>
      split at h
      · cases h; simp [phaseEvents, hp, State.takeByte]
      · cases h
    all_goals cases h
    all_goals simp only [phaseEvents, hp, snapEvents, rmwEvents]
    all_goals first
      | rfl
      | (split <;> rfl)

/-- What a step records: the events of the running phase, or nothing. -/
theorem step_trace {s t : State} (h : step s = .next t) :
    (t.trace = s.trace ∧ (s.resetAsserted = true ∨ s.pc = .idle)) ∨
    (t.trace = s.trace ++ phaseEvents s ∧ s.resetAsserted = false ∧ s.pc ≠ .idle) := by
  rcases step_next h with ⟨hr, rfl⟩ | ⟨-, hp, -, rfl⟩ | ⟨-, hp, -, rfl⟩ | ⟨-, hp, c, rest, i, -, -, -, rfl⟩ |
    ⟨hr, hp, -, hs⟩
  · exact .inl ⟨rfl, .inl hr⟩
  · exact .inl ⟨rfl, .inr hp⟩
  · exact .inl ⟨rfl, .inr hp⟩
  · refine .inl ⟨?_, .inr hp⟩
    cases i <;> rfl
  · exact .inr ⟨phaseStep_trace (s := s.clockPin) hs, hr, hp⟩

/-! ### Runs -/

@[simp] theorem runFor_zero (s : State) : runFor 0 s = .next s := rfl

theorem runFor_succ_of {k : Nat} {s t : State} (h : step s = .next t) : runFor (k + 1) s = runFor k t := by
  have hs : Sys2Proof.core.step s = .next t := h
  simp only [runFor, Host.Core.run, hs]
  rfl

/-- A run of `k + 1` steps that answers a next state takes a first step that does. -/
theorem runFor_succ_next {k : Nat} {s t : State} (h : runFor (k + 1) s = .next t) :
    ∃ u, step s = .next u ∧ runFor k u = .next t := by
  simp only [runFor, Host.Core.run] at h
  split at h
  · rename_i u hu; exact ⟨u, hu, h⟩
  · cases h
  · cases h

/-- Runs follow one another. -/
theorem runFor_add {j k : Nat} {s t : State} (h : runFor j s = .next t) : runFor (j + k) s = runFor k t := by
  induction j generalizing s with
  | zero => cases h; simp
  | succ j ih =>
    obtain ⟨u, hu, h⟩ := runFor_succ_next h
    rw [Nat.succ_add, runFor_succ_of hu, ih h]

end Sys2Proof.Machine
end

