-- ==== Sys2Proof/Laws/Data.lean ====
section
/-! SUPPORT. What every micro-operation keeps of the recorded data (`State.dataOk`, Safety.lean), and the flags of a status
value by their bits. -/

namespace Sys2Proof.Machine

/-! ### Flags by their bits -/

/-- R13, R85, R86: a flag is one bit of its register. -/
theorem flagSet_regBit (v : Word) (k : Nat) (hk : k < 32) : flagSet v (regBit k) = v.getLsbD k := by
  change flagSet v (BitVec.twoPow 32 k) = v.getLsbD k
  have h : BitVec.twoPow 32 k ≠ 0#32 := by
    intro h
    have := congrArg (fun x : BitVec 32 => x.getLsbD k) h
    simp [hk] at this
  unfold flagSet
  rw [BitVec.and_twoPow]
  cases hb : v.getLsbD k <;> simp [h]

theorem flagSet_sb (v : Word) : flagSet v sbMask = v.getLsbD 0 := flagSet_regBit v 0 (by decide)
theorem flagSet_addr (v : Word) : flagSet v addrMask = v.getLsbD 1 := flagSet_regBit v 1 (by decide)
theorem flagSet_btf (v : Word) : flagSet v btfMask = v.getLsbD 2 := flagSet_regBit v 2 (by decide)
theorem flagSet_rxne (v : Word) : flagSet v rxneMask = v.getLsbD 6 := flagSet_regBit v 6 (by decide)
theorem flagSet_txe (v : Word) : flagSet v txeMask = v.getLsbD 7 := flagSet_regBit v 7 (by decide)
theorem flagSet_berr (v : Word) : flagSet v berrMask = v.getLsbD 8 := flagSet_regBit v 8 (by decide)
theorem flagSet_arlo (v : Word) : flagSet v arloMask = v.getLsbD 9 := flagSet_regBit v 9 (by decide)
theorem flagSet_af (v : Word) : flagSet v afMask = v.getLsbD 10 := flagSet_regBit v 10 (by decide)
theorem flagSet_ovr (v : Word) : flagSet v ovrMask = v.getLsbD 11 := flagSet_regBit v 11 (by decide)
theorem flagSet_msl (v : Word) : flagSet v mslMask = v.getLsbD 0 := flagSet_regBit v 0 (by decide)
theorem flagSet_busy (v : Word) : flagSet v busyMask = v.getLsbD 1 := flagSet_regBit v 1 (by decide)
theorem flagSet_tra (v : Word) : flagSet v traMask = v.getLsbD 2 := flagSet_regBit v 2 (by decide)

/-! ### Widths -/

theorem fits_or {r : Reg} {v w : Word} (h1 : fits r v) (h2 : fits r w) : fits r (v ||| w) := by
  unfold fits at *
  rw [← h1, ← h2]
  ext k hk
  simp only [BitVec.getElem_and, BitVec.getElem_or]
  cases v[k] <;> cases w[k] <;> cases (widthMask r)[k] <;> rfl

theorem fits_and {r : Reg} {v : Word} (h : fits r v) (w : Word) : fits r (v &&& w) := by
  unfold fits at *
  rw [BitVec.and_assoc, BitVec.and_comm w, ← BitVec.and_assoc, h]

theorem fits_answer (s : State) (r : Reg) : fits r (s.answer r) := answer_width s r params

/-- R57, R84: a byte zero-extended fits DATAR. -/
theorem fits_dataWord (b : Byte) : fits .datar (dataWord b) := by
  unfold fits dataWord
  revert b
  decide

/-- R33, R57: a 16-bit answer is read as it stands. -/
theorem answer_half {s : State} {v : BitVec 16} {rest : List Answer} (h : s.answers = half v :: rest) (r : Reg) :
    s.answer r = v.setWidth 32 := by
  rw [answer_value h]
  apply BitVec.eq_of_toNat_eq
  have hw : (widthMask r).toNat = 2 ^ 16 - 1 ∨ (widthMask r).toNat = 2 ^ 32 - 1 := by cases r <;> decide
  rw [BitVec.toNat_and, BitVec.toNat_setWidth]
  rcases hw with hw | hw <;> rw [hw, Nat.and_two_pow_sub_one_eq_mod] <;> omega

/-- A snapshot whose answers are written out. -/
theorem snap_half {s : State} {x : Snap} {rest : List Answer} (h : s.answers = x.answers ++ rest) :
    s.snap1 = x.s1.setWidth 32 ∧ s.snap2 = x.s2.setWidth 32 := by
  refine ⟨answer_half h .star1, ?_⟩
  have h2 : (s.readReg .star1).answers = half x.s2 :: rest := by simp [State.readReg, h, Snap.answers]
  exact answer_half h2 .star2

/-! ### What keeps the data in order -/

theorem env_fits_set {e : EnvRegs} {r : Reg} {w : Word} (h : ∀ q, fits q (e.get q)) (hw : fits r w) (q : Reg) :
    fits q ((e.set r w).get q) := by
  by_cases hq : q = r
  · subst hq; rwa [env_get_set]
  · rw [env_get_set_other _ _ _ _ hq]; exact h q

theorem dataOk_congr {s t : State} (h : s.dataOk) (he : t.env = s.env) (ht : t.trace = s.trace)
    (hr : t.res = s.res) : t.dataOk := by
  unfold State.dataOk at *
  rwa [he, ht, hr]

theorem dataOk_posted {s t : State} (h : s.dataOk) (he : t.env = s.env) (ht : t.trace = s.trace)
    (hr : t.res.done = true) : t.dataOk :=
  ⟨by rw [he]; exact h.1, by rw [ht]; exact h.2.1, by simp [hr]⟩

theorem dataOk_readReg {s : State} (h : s.dataOk) (r : Reg) : (s.readReg r).dataOk := by
  refine ⟨env_fits_set h.1 (fits_answer s r), ?_, h.2.2⟩
  intro e he
  simp only [State.readReg, List.mem_append, List.mem_singleton] at he
  rcases he with he | rfl
  · exact h.2.1 e he
  · exact fits_answer s r

theorem dataOk_writeReg {s : State} (h : s.dataOk) {r : Reg} {w : Word} (hw : fits r w) : (s.writeReg r w).dataOk := by
  refine ⟨env_fits_set h.1 hw, ?_, h.2.2⟩
  intro e he
  simp only [State.writeReg, List.mem_append, List.mem_singleton] at he
  rcases he with he | rfl
  · exact h.2.1 e he
  · exact hw

theorem dataOk_modifyReg {s : State} (h : s.dataOk) {r : Reg} {f : Word → Word} (hf : fits r (f (s.answer r))) :
    (s.modifyReg r f).dataOk :=
  dataOk_writeReg (dataOk_readReg h r) hf

theorem dataOk_afterSnap {s : State} (h : s.dataOk) : s.afterSnap.dataOk :=
  dataOk_readReg (dataOk_readReg h .star1) .star2

end Sys2Proof.Machine
end

