-- ==== Sys2Proof/Laws/PerInstr.lean ====
section
/-! SUPPORT. Statements made for each command as syntax, one lemma per constructor. -/

namespace Sys2Proof.Laws.WordShape

/-- R71-R75: the command's word carries its opcode in bits 3:0 and 0 in every reserved bit of its format. -/
def Statement (i : Instr) : Prop :=
  opcodeOf (encode i) = some i.opcode ∧ encode i >>> reservedFrom i.opcode = 0#32

theorem resolve (d : Duty) : Statement (.resolve d) := by
  cases d <;> exact ⟨by decide, by decide⟩

theorem openEngine (r : BitVec 2) (d : Duty) : Statement (.openEngine r d) := by
  unfold Statement
  cases d <;> revert r <;> decide

theorem closeEngine : Statement .closeEngine := ⟨by decide, by decide⟩

theorem write (a : BitVec 7) : Statement (.write a) := by
  unfold Statement
  revert a
  decide

theorem read (a : BitVec 7) : Statement (.read a) := by
  unfold Statement
  revert a
  decide

theorem writeRead (a : BitVec 7) : Statement (.writeRead a) := by
  unfold Statement
  revert a
  decide

end Sys2Proof.Laws.WordShape
end

