-- ==== Sys2Proof/Laws/Runs.lean ====
section
/-! SUPPORT. Runs over answers written out: what a step of a running transaction is, and what a poll that exits does. -/

namespace Sys2Proof.Machine

/-! ### One step of a running command -/

theorem clockPin_of_empty {s : State} (h : s.resetPin = []) : s.clockPin = s := by
  cases s; simp_all [State.clockPin]

theorem resetAsserted_of_empty {s : State} (h : s.resetPin = []) : s.resetAsserted = false := by
  simp [State.resetAsserted, h]

/-- A step of a busy block is one `exec` of the running command. -/
theorem step_busy {s : State} (hr : s.resetAsserted = false) (hp : s.pc ≠ .idle) :
    step s = exec s.current s.clockPin := by
  rw [step_eq_run hr]
  unfold State.runBy
  split
  · rename_i h; exact absurd h hp
  all_goals rfl

theorem step_openPhase {s : State} {p : OpenPhase} (hr : s.resetPin = []) (hp : s.pc = .o p)
    (ho : s.op = .openEngine) : step s = .next (openPhase p s) := by
  rw [step_busy (resetAsserted_of_empty hr) (by simp [hp]), clockPin_of_empty hr, exec_eq_execAt]
  simp [State.current, ho, execAt, execOpenEngineAt, hp]

theorem step_writePhase {s : State} {p : WritePhase} (hr : s.resetPin = []) (hp : s.pc = .w p)
    (ho : s.op = .write ∨ s.op = .writeRead) : step s = writePhase p s := by
  rw [step_busy (resetAsserted_of_empty hr) (by simp [hp]), clockPin_of_empty hr, exec_eq_execAt]
  rcases ho with ho | ho <;> simp [State.current, ho, execAt, execWriteAt, execWriteReadAt, hp]

theorem step_readPhase {s : State} {p : ReadPhase} (hr : s.resetPin = []) (hp : s.pc = .r p)
    (ho : s.op = .read ∨ s.op = .writeRead) : step s = readPhase p s := by
  rw [step_busy (resetAsserted_of_empty hr) (by simp [hp]), clockPin_of_empty hr, exec_eq_execAt]
  rcases ho with ho | ho <;> simp [State.current, ho, execAt, execReadAt, execWriteReadAt, hp]

/-! ### The registers a transaction changes before it posts -/

/-- `s` with these values in the registers and records that change while a transaction runs. -/
def State.during (s : State) (e : EnvRegs) (a : List Answer) (n : Nat) (tr : List Event) (k : Nat) (p : Phase)
    (b : List Byte) : State :=
  { s with env := e, answers := a, reads := n, trace := tr, i := k, pc := p, rbuf := b }

section
variable (s : State) (e e' : EnvRegs) (a a' : List Answer) (n n' : Nat) (tr tr' : List Event) (k k' : Nat)
  (p p' : Phase) (b b' : List Byte)

theorem during_self : s.during s.env s.answers s.reads s.trace s.i s.pc s.rbuf = s := rfl
@[simp] theorem during_during :
    (s.during e a n tr k p b).during e' a' n' tr' k' p' b' = s.during e' a' n' tr' k' p' b' := rfl
@[simp] theorem during_env : (s.during e a n tr k p b).env = e := rfl
@[simp] theorem during_answers : (s.during e a n tr k p b).answers = a := rfl
@[simp] theorem during_reads : (s.during e a n tr k p b).reads = n := rfl
@[simp] theorem during_trace : (s.during e a n tr k p b).trace = tr := rfl
@[simp] theorem during_i : (s.during e a n tr k p b).i = k := rfl
@[simp] theorem during_pc : (s.during e a n tr k p b).pc = p := rfl
@[simp] theorem during_rbuf : (s.during e a n tr k p b).rbuf = b := rfl
@[simp] theorem during_op : (s.during e a n tr k p b).op = s.op := rfl
@[simp] theorem during_wdata : (s.during e a n tr k p b).wdata = s.wdata := rfl
@[simp] theorem during_m : (s.during e a n tr k p b).m = s.m := rfl
@[simp] theorem during_a7 : (s.during e a n tr k p b).a7 = s.a7 := rfl
@[simp] theorem during_res : (s.during e a n tr k p b).res = s.res := rfl
@[simp] theorem during_thenRead : (s.during e a n tr k p b).thenRead = s.thenRead := rfl
@[simp] theorem during_resetPin : (s.during e a n tr k p b).resetPin = s.resetPin := rfl

theorem during_afterPoll :
    (s.during e a n tr k p b).afterPoll p' k' =
      s.during ((e.set .star1 (s.during e a n tr k p b).snap1).set .star2 (s.during e a n tr k p b).snap2)
        a.tail.tail (n + 2)
        (tr ++ [.rd .star1 (s.during e a n tr k p b).snap1, .rd .star2 (s.during e a n tr k p b).snap2]) k' p' b := rfl

theorem during_afterRmw (r : Reg) (w : Word) :
    (s.during e a n tr k p b).afterRmw r w p' =
      s.during (e.set r w) a.tail (n + 1) (tr ++ [.rd r ((s.during e a n tr k p b).answer r), .wr r w]) k p' b := rfl
end

/-! ### Polls -/

/-- A poll phase `p` whose iterations move to phase `q` and index `k` when `P` holds and stay otherwise: over the answers
of a poll that exits it records the iterations and stands at `q`. -/
theorem poll_exits (s : State) (P : Word → Word → Bool) (p q : Phase) (k j : Nat) (b : List Byte) (pass : Snap)
    (more : List Answer) (hpass : pass.sat P = true)
    (hstep : ∀ e a n tr, step (s.during e a n tr j p b) =
      .next (if P (s.during e a n tr j p b).snap1 (s.during e a n tr j p b).snap2
        then (s.during e a n tr j p b).afterPoll q k else (s.during e a n tr j p b).afterPoll p j))
    (fails : List Snap) (e : EnvRegs) (n : Nat) (tr : List Event) (hf : ∀ f ∈ fails, f.sat P = false) :
    ∃ e', runFor (PollScript.mk fails pass).steps
        (s.during e ((PollScript.mk fails pass).answers ++ more) n tr j p b) =
      .next (s.during e' more (n + (PollScript.mk fails pass).answers.length)
        (tr ++ (PollScript.mk fails pass).events) k q b) := by
  induction fails generalizing e n tr with
  | nil =>
    have h1 := hstep e (pass.answers ++ more) n tr
    obtain ⟨e1, e2⟩ := snap_half (s := s.during e (pass.answers ++ more) n tr j p b) (x := pass) rfl
    rw [if_pos (by rw [e1, e2]; exact hpass), during_afterPoll, e1, e2] at h1
    refine ⟨(e.set .star1 (pass.s1.setWidth 32)).set .star2 (pass.s2.setWidth 32), ?_⟩
    simp only [PollScript.steps, List.length_nil, PollScript.answers, List.flatMap_nil, List.nil_append,
      PollScript.events]
    rw [runFor_succ_of h1, runFor_zero]
    rfl
  | cons f fs ih =>
    have h1 := hstep e (f.answers ++ ((PollScript.mk fs pass).answers ++ more)) n tr
    obtain ⟨e1, e2⟩ := snap_half
      (s := s.during e (f.answers ++ ((PollScript.mk fs pass).answers ++ more)) n tr j p b) (x := f) rfl
    have hfail : P (f.s1.setWidth 32) (f.s2.setWidth 32) = false := hf f (by simp)
    rw [if_neg (by rw [e1, e2]; simp [hfail]), during_afterPoll, e1, e2] at h1
    obtain ⟨e', ih⟩ := ih ((e.set .star1 (f.s1.setWidth 32)).set .star2 (f.s2.setWidth 32)) (n + 2) (tr ++ f.events)
      (fun g hg => hf g (by simp [hg]))
    refine ⟨e', ?_⟩
    have hst : (PollScript.mk (f :: fs) pass).steps = (PollScript.mk fs pass).steps + 1 := by simp [PollScript.steps]
    have ha : (PollScript.mk (f :: fs) pass).answers ++ more =
        f.answers ++ ((PollScript.mk fs pass).answers ++ more) := by simp [PollScript.answers]
    have hl : n + (PollScript.mk (f :: fs) pass).answers.length = n + 2 + (PollScript.mk fs pass).answers.length := by
      simp [PollScript.answers, Snap.answers]; omega
    have he : tr ++ (PollScript.mk (f :: fs) pass).events = (tr ++ f.events) ++ (PollScript.mk fs pass).events := by
      simp [PollScript.events]
    rw [hst, ha, runFor_succ_of h1, hl, he]
    exact ih

/-- The polls of a WRITE that move on by `pc` alone have the form `poll_exits` asks for. -/
theorem write_poll_step (s : State) {p : WritePhase} {P : Word → Word → Bool} {q : Phase} (hr : s.resetPin = [])
    (ho : s.op = .write ∨ s.op = .writeRead)
    (hw : ∀ u : State, writePhase p u = u.poll P (fun t => t.goto q))
    (e : EnvRegs) (a : List Answer) (n : Nat) (tr : List Event) (j : Nat) (b : List Byte) :
    step (s.during e a n tr j (.w p) b) =
      .next (if P (s.during e a n tr j (.w p) b).snap1 (s.during e a n tr j (.w p) b).snap2
        then (s.during e a n tr j (.w p) b).afterPoll q j else (s.during e a n tr j (.w p) b).afterPoll (.w p) j) := by
  rw [step_writePhase (s := s.during e a n tr j (.w p) b) (p := p) hr rfl ho, hw, poll_goto]
  simp only [during_pc, during_i]
  split <;> rfl

/-- The polls of a READ that move on by `pc` alone have the form `poll_exits` asks for. -/
theorem read_poll_step (s : State) {p : ReadPhase} {P : Word → Word → Bool} {q : Phase} (hr : s.resetPin = [])
    (ho : s.op = .read ∨ s.op = .writeRead)
    (hw : ∀ u : State, readPhase p u = u.poll P (fun t => t.goto q))
    (e : EnvRegs) (a : List Answer) (n : Nat) (tr : List Event) (j : Nat) (b : List Byte) :
    step (s.during e a n tr j (.r p) b) =
      .next (if P (s.during e a n tr j (.r p) b).snap1 (s.during e a n tr j (.r p) b).snap2
        then (s.during e a n tr j (.r p) b).afterPoll q j else (s.during e a n tr j (.r p) b).afterPoll (.r p) j) := by
  rw [step_readPhase (s := s.during e a n tr j (.r p) b) (p := p) hr rfl ho, hw, poll_goto]
  simp only [during_pc, during_i]
  split <;> rfl

end Sys2Proof.Machine
end

