-- ==== Sys2Proof/Tests/Slice0.lean ====
section
/-! SUPPORT. The package's own tests: expected values are those of spec/95_test_vectors.md (each test names its vector) or are
computed by hand from the rule named. The `witness_` theorems show, for each statement with hypotheses, a state and
operands that meet them together. -/

namespace Sys2Proof.Tests

open Sys2Proof Sys2Proof.Machine

/-! ### Small states -/

/-- The operand record with these fields. -/
def timingOperands (pclk speed : Word) : Operands := ⟨pclk, speed, [], []⟩
def bytesOperands (w r : List Byte) : Operands := ⟨0, 0, w, r⟩

/-- An idle block with one command at its port. -/
def idleWith (owned : Bool) (word : Word) (o : Operands) : State :=
  { State.reset with owned := owned, host := [⟨word, o⟩] }

/-- A block in the middle of a command, with these answers to come. -/
def busyIn (op : Opcode) (p : Phase) (answers : List Answer) : State :=
  { State.reset with owned := true, op := op, pc := p, answers := answers, pclk := 8000000, speed := 100000 }

/-- The state a step answers. -/
def nextOf : StepOutcome → Option State
  | .next t => some t
  | .fault _ => none
  | .refused _ => none

/-- The events, the phase and the result of a step. -/
def eventsOf (o : StepOutcome) : Option (List Event) := (nextOf o).map State.trace
def phaseOf (o : StepOutcome) : Option Phase := (nextOf o).map State.pc
def resultOf (o : StepOutcome) : Option ResultReg := (nextOf o).map State.res

/-! ### WellFormed: an ill-formed operand record for each check -/

/-- R107: SPEED 0 and 1_000_001 (vectors RX13, RX14). -/
theorem test_resolve_speed_zero_is_ill_formed :
    WellFormed params (.resolve .lowDuty33) (timingOperands 8000000 0) = false := by decide
theorem test_resolve_speed_above_range_is_ill_formed :
    WellFormed params (.resolve .lowDuty33) (timingOperands 8000000 1000001) = false := by decide
/-- RX15. -/
theorem test_open_speed_zero_is_ill_formed :
    WellFormed params (.openEngine 0 .lowDuty33) (timingOperands 8000000 0) = false := by decide
/-- R184 RF_LEN, under a bound of 1 byte. -/
theorem test_write_length_is_checked :
    WellFormed { params with maxXferLen := some 1 } (.write 0x50) (bytesOperands [1, 2] []) = false := by decide
theorem test_read_length_is_checked :
    WellFormed { params with maxXferLen := some 1 } (.read 0x50) (bytesOperands [] [1, 2]) = false := by decide
theorem test_write_read_both_lengths_are_checked :
    WellFormed { params with maxXferLen := some 1 } (.writeRead 0x50) (bytesOperands [1, 2] [1]) = false ∧
    WellFormed { params with maxXferLen := some 1 } (.writeRead 0x50) (bytesOperands [1] [1, 2]) = false := by decide
/-- A record that passes: both ends of R107's range, and a length at the bound. -/
theorem test_well_formed_at_the_bounds :
    WellFormed params (.resolve .lowDuty36) (timingOperands 0 1) = true ∧
    WellFormed params (.openEngine 3 .lowDuty33) (timingOperands 0xFFFFFFFF 1000000) = true ∧
    WellFormed { params with maxXferLen := some 1 } (.write 0x50) (bytesOperands [1] []) = true := by decide

/-! ### Decoding: words written out bit by bit from R72-R75 -/

theorem test_decode_resolve : decode 0b00000000000000000000000000010001#32 = .ok (.resolve .lowDuty36) := by decide
theorem test_decode_open :
    decode 0b00000000000000000000000001010010#32 = .ok (.openEngine 0b10#2 .lowDuty36) := by decide
theorem test_decode_close : decode 0b00000000000000000000000000000011#32 = .ok .closeEngine := by decide
theorem test_decode_write : decode 0b00000000000000000000010100000100#32 = .ok (.write 0x50#7) := by decide
theorem test_decode_read : decode 0b00000000000000000000011111110101#32 = .ok (.read 0x7F#7) := by decide
theorem test_decode_write_read : decode 0b00000000000000000000011010000110#32 = .ok (.writeRead 0x68#7) := by decide
/-- RX1 to RX7. -/
theorem test_decode_refuses :
    decode 0x00000000#32 = .error .rfOpcode ∧ decode 0x00000007#32 = .error .rfOpcode ∧
    decode 0x0000000F#32 = .error .rfOpcode ∧ decode 0x00000021#32 = .error .rfRsvd ∧
    decode 0x00000082#32 = .error .rfRsvd ∧ decode 0x00000013#32 = .error .rfRsvd ∧
    decode 0x00000D04#32 = .error .rfRsvd := by decide
/-- The other direction, on the command words of T-O3 and T-W2. -/
theorem test_encode :
    encode (.openEngine 0b10#2 .lowDuty33) = 0x00000042#32 ∧ encode (.write 0x3C#7) = 0x000003C4#32 := by decide
/-- R79: `read 0x50, 2` (T-R1) and `open.fm pclk=16000000, remap=0` (P2). -/
theorem test_assemble :
    assemble (.readCount 0x50#7 2) = ⟨0x00000505#32, bytesOperands [] [0, 0]⟩ ∧
    assemble (.openPreset .fm 16000000 0) = ⟨0x00000002#32, timingOperands 16000000 400000⟩ := by decide

/-- A word of the table runs as the first instruction after reset. -/
theorem test_fetch_word :
    decodeTableWord 32 0x11 = some (.resolve .lowDuty36) ∧ decodeTableWord 32 0x21 = none ∧
    phaseOf (step ((idleWith false 0 (timingOperands 8000000 100000)).withFetchWord 32 0x11)) = some .s1 := by decide

/-! ### The resolver (vectors V2, V3, V8, V9, V10, V11) -/

theorem test_resolver_v2_v3 :
    resolveTiming params 8000000 400000 .lowDuty33 = ⟨6, 1, 0⟩ ∧
    resolveTiming params 48000000 1000000 .lowDuty33 = ⟨12, 1, 0⟩ := by decide
theorem test_resolver_v8_v9 :
    resolveTiming params 8000000 100001 .lowDuty33 = ⟨26, 1, 0⟩ ∧
    resolveTiming params 2000000 1000000 .lowDuty33 = ⟨0, 1, 0⟩ := by decide
theorem test_resolver_v10_v11_v6 :
    resolveTiming params 36000000 1 .lowDuty33 = ⟨18000000, 0, 0⟩ ∧
    resolveTiming params 8000000 100000 .lowDuty36 = ⟨40, 0, 1⟩ ∧
    resolveTiming params 36000000 400000 .lowDuty36 = ⟨3, 1, 1⟩ := by decide
/-- R105 under `DUTY_BIT_STD = Zero`, on the operands of V11. -/
theorem test_resolver_duty_bit_zero :
    resolveTiming { params with dutyBitStd := .zero } 8000000 100000 .lowDuty36 = ⟨40, 0, 0⟩ := by decide
/-- The CKCFGR value of V10 and the FREQ value of V13. -/
theorem test_ckcfgr_and_freq_fields :
    timingField ⟨18000000, 0, 0⟩ = 0x0880#32 ∧ freqField 2500000 = 2#32 := by decide

/-! ### The register map -/

/-- R80: the table, with the two registers the sequencer never accesses. -/
theorem test_register_map :
    ([.ctlr1, .ctlr2, .datar, .star1, .star2, .ckcfgr] : List Reg).map (fun r => (regAddr r, regWidth r)) =
      [(0x40005400, 16), (0x40005404, 16), (0x40005410, 16), (0x40005414, 16), (0x40005418, 16), (0x4000541C, 16)] ∧
    ([.pcfr1, .apb1prstr, .apb2pcenr, .apb1pcenr] : List Reg).map (fun r => (regAddr r, regWidth r)) =
      [(0x40010004, 32), (0x40021010, 32), (0x40021018, 32), (0x4002101C, 32)] ∧
    params.regMap.oaddr1.addr = 0x40005408 ∧ params.regMap.oaddr2.addr = 0x4000540C := by decide
/-- R81-R87: the masks. -/
theorem test_masks :
    [peMask, startMask, stopMask, ackMask, swrstMask, freqMask, timingMask] =
      [0x0001#32, 0x0100#32, 0x0200#32, 0x0400#32, 0x8000#32, 0x003F#32, 0xCFFF#32] ∧
    [i2c1enMask, i2c1rstMask, afioenMask, rmMask] = [0x00200000#32, 0x00200000#32, 0x00000001#32, 0x00400002#32] := by
  decide
/-- R35: under a map with FREQ in bits 13:8, O8 writes 8 there and keeps the other bits. -/
theorem test_register_map_is_an_argument :
    eventsOf (stepAt { params with regMap := { regMapCH32V003 with freqLo := 8 } }
      (busyIn .openEngine (.o .o8) [.value 0xFFFF#32])) = some [.rd .ctlr2 0xFFFF#32, .wr .ctlr2 0xC8FF#32] := by decide

/-! ### The error check (CK1, CK3, CK5, CK6, CK8) -/

theorem test_classify :
    classify 0x0500#32 = .busError ∧ classify 0x0C00#32 = .acknowledgeFailure ∧
    classify 0x0A00#32 = .arbitrationLost ∧ classify 0x0800#32 = .overrun ∧ classify 0x1000#32 = .ok := by decide

/-! ### Refusals at the port -/

/-- RX8, RX11, RX12, RX13, RX16, RX17. -/
theorem test_port_refusals :
    portRefusal ⟨0x504#32, bytesOperands [1] []⟩ false = some .rfState ∧
    portRefusal ⟨0x3#32, Operands.none⟩ false = some .rfState ∧
    portRefusal ⟨0x2#32, timingOperands 8000000 100000⟩ true = some .rfState ∧
    portRefusal ⟨0x1#32, timingOperands 8000000 0⟩ true = some .rfSpeed ∧
    portRefusal ⟨0x2#32, timingOperands 8000000 0⟩ true = some .rfState ∧
    portRefusal ⟨0x82#32, timingOperands 8000000 0⟩ true = some .rfRsvd := by decide
/-- RX8 as a step: the mark is set, nothing is recorded or posted. -/
theorem test_refused_write_sets_the_mark :
    (nextOf (step (idleWith false 0x504#32 (bytesOperands [1] [])))).map
      (fun t => (t.refused, t.pc, t.owned, t.res, t.trace)) = some (true, .idle, false, ⟨false, .ok, 0, 0, 0⟩, []) := by
  decide

/-! ### RESOLVE -/

/-- RESOLVE is admitted while the sequencer owns the peripheral (R129). -/
theorem test_resolve_accepted_when_owned :
    (nextOf (step (idleWith true 0x11#32 (timingOperands 8000000 100000)))).map
      (fun t => (t.pc, t.owned, t.dutySel, t.speed)) = some (.s1, true, .lowDuty36, 100000#32) := by decide
/-- V11. -/
theorem test_resolve_posts :
    resultOf (step { busyIn .resolve .s1 [] with dutySel := .lowDuty36 }) = some ⟨true, .ok, 40, 0, 1⟩ := by decide

/-! ### OPEN -/

/-- T-O2 and T-O3: O7 with PCFR1 reading 0x1234_5671 and 0xFFFF_FFFF. -/
theorem test_open_o7 :
    eventsOf (step { busyIn .openEngine (.o .o7) [.value 0x12345671#32] with remap := 3 }) =
      some [.rd .pcfr1 0x12345671#32, .wr .pcfr1 0x12745673#32] ∧
    eventsOf (step { busyIn .openEngine (.o .o7) [.value 0xFFFFFFFF#32] with remap := 2 }) =
      some [.rd .pcfr1 0xFFFFFFFF#32, .wr .pcfr1 0xFFFFFFFD#32] := by decide
/-- T-O4: O8 with CTLR2 reading 0x0F3F, and O9 with CKCFGR reading 0x3FFF. -/
theorem test_open_o8_o9 :
    eventsOf (step (busyIn .openEngine (.o .o8) [.value 0x0F3F#32])) =
      some [.rd .ctlr2 0x0F3F#32, .wr .ctlr2 0x0F08#32] ∧
    eventsOf (step (busyIn .openEngine (.o .o9) [.value 0x3FFF#32])) =
      some [.rd .ckcfgr 0x3FFF#32, .wr .ckcfgr 0x3028#32] := by decide

/-! ### CLOSE -/

/-- T-C1. -/
theorem test_close :
    (nextOf (step (busyIn .closeEngine .c1 [.value 0x0401#32]))).map (fun t => (t.trace, t.owned, t.pc, t.res.code)) =
      some ([.rd .ctlr1 0x0401#32, .wr .ctlr1 0x0400#32], false, .idle, .ok) := by decide
/-- RX11. -/
theorem test_close_refused_without_an_engine :
    (nextOf (step (idleWith false 0x3#32 Operands.none))).map (fun t => (t.refused, t.pc)) = some (true, .idle) := by
  decide

/-! ### WRITE -/

/-- T-W1, event 7: the address byte of 0x50. -/
theorem test_write_address_byte :
    eventsOf (step { busyIn .write (.w .w4) [] with a7 := 0x50 }) = some [.wr .datar 0x00A0#32] := by decide
/-- T-W2, events 1 and 2: BUSY at W1 keeps the phase; T-W4: the error is posted at W9, after STOP. -/
theorem test_write_poll_fails_and_error_posts :
    phaseOf (step (busyIn .write (.w .w1) [.value 0#32, .value 2#32])) = some (.w .w1) ∧
    resultOf (step (busyIn .write (.w .w9) [.value 0x0480#32])) = some ⟨true, .acknowledgeFailure, 0, 0, 0⟩ := by decide

/-! ### READ -/

/-- T-R4: DATAR reading 0xFF77 puts 0x77 into slot 0. -/
theorem test_read_keeps_the_low_byte :
    (nextOf (step { busyIn .read (.r .r6d) [.value 0xFF77#32] with m := 1, rbuf := [0x99#8] })).map
      (fun t => (t.rbuf, t.trace, t.pc, t.i)) =
      some ([0x77#8], [.rd .datar 0xFF77#32, .hb 0 0x77#8], .r .r7, 1) := by decide
/-- T-R2: with TxE clear R5 polls again under the value the spec takes, and passes under the other. -/
theorem test_read_address_wait :
    phaseOf (step { busyIn .read (.r .r5) [.value 2#32, .value 3#32] with m := 1, rbuf := [0] }) = some (.r .r5) ∧
    pMrms { params with readAddrWaitTxe := false } 2#32 3#32 = true := by decide

/-! ### WRITE_READ -/

/-- T-WR1: BERR at W9 ends the command with its buffer unchanged. -/
theorem test_write_read_stops_at_an_error :
    (nextOf (step { busyIn .writeRead (.w .w9) [.value 0x0100#32] with thenRead := true, m := 1, rbuf := [0xEE#8] })).map
      (fun t => (t.pc, t.res.code, t.rbuf)) = some (.idle, .busError, [0xEE#8]) := by decide
/-- T-WR2, events 14 and 15: OK at W9 starts the read half and posts nothing. -/
theorem test_write_read_goes_on :
    (nextOf (step { busyIn .writeRead (.w .w9) [.value 0#32] with thenRead := true })).map
      (fun t => (t.pc, t.res.done, t.thenRead)) = some (.r .r1, false, false) := by decide

/-! ### Reset -/

/-- R200 in the middle of a WRITE. -/
theorem test_reset_abandons_a_command :
    (nextOf (step { busyIn .write (.w .w5) [] with resetPin := [true] })).map
      (fun t => (t.pc, t.owned, t.res.done, t.trace)) = some (.idle, false, false, []) := by decide

/-! ### Witnesses

One theorem for each statement with hypotheses, at a boundary value for each clause with hypotheses of its own. -/

/-- A state with the environment's registers, the record and the result as at reset meets `State.dataOk`. -/
theorem dataOk_fresh {s : State} (he : s.env = EnvRegs.zero) (ht : s.trace = []) (hr : s.res = State.reset.res) :
    s.dataOk := by
  refine ⟨?_, ?_, ?_⟩
  · intro r; rw [he]; cases r <;> rfl
  · rw [ht]; simp
  · rw [hr]; decide

/-- A script of polls that pass at once, with the snapshots of the clean polls of spec/95_test_vectors.md. -/
def pass (s1 s2 : BitVec 16) : PollScript := ⟨[], ⟨s1, s2⟩⟩
/-- T-W1: two bytes, clean polls, `e9` read at W9. -/
def writeScript (e9 : BitVec 16) : WriteScript :=
  { w1 := pass 0 0, v2 := 0x0401, w3 := pass 1 3, w5 := pass 0x82 7, data := [pass 0x80 7, pass 0x80 7],
    w7 := pass 0x84 7, v8 := 0x0401, e9 := e9 }
/-- T-R4: one byte, one failed iteration at R1, DATAR reading 0xFF77, OVR at R8. -/
def readScript : ReadScript :=
  { r1 := ⟨[⟨0, 2⟩], ⟨0, 0⟩⟩, v2 := 0x0401, r3 := pass 1 3, r5 := pass 0x82 3, data := [(pass 0x40 3, 0xFF77)],
    v7 := 0x0401, e8 := 0x0840 }
/-- The answers of an eight-step WRITE of no bytes, and of a READ of none (T-W3, T-R3). -/
def shortWrite : State :=
  { busyIn .write (.w .w1) ([0, 0, 0x0401, 1, 3, 0x82, 7, 0x84, 7, 0x0401, 0].map .value) with a7 := 0x3C }
def shortRead : State :=
  { busyIn .read (.r .r1) ([0, 0, 0x0401, 1, 3, 0x82, 3, 0x0401, 0].map .value) with a7 := 0x48 }

/-- The run has not come back to IDLE (or has no next state). -/
def stillBusy (o : StepOutcome) : Bool := phaseOf o != some .idle

theorem not_idle_of_stillBusy {o : StepOutcome} {u : State} (h : stillBusy o = true) (hu : o = .next u) :
    u.pc ≠ .idle := by
  subst hu
  intro hp
  simp [stillBusy, phaseOf, nextOf, hp] at h

theorem witness_DecodeFollowsTheOpcodeTable :
    (⟨"READ", 0xFFFFF80F#32, 0x00000005#32⟩ : TableRow) ∈ opcodeTable ∧
      0x7F5#32 &&& 0xFFFFF80F#32 = 0x00000005#32 := by decide

theorem witness_ReservedWordsAreRefused :
    ((0#32).toNat % 16 = 0 ∧ 7 ≤ (7#32).toNat % 16 ∧ 7 ≤ (15#32).toNat % 16) ∧
    ((0x21#32).toNat % 16 = 1 ∧ 2 ^ 5 ≤ (0x21#32).toNat) ∧ ((0x82#32).toNat % 16 = 2 ∧ 2 ^ 7 ≤ (0x82#32).toNat) ∧
    ((0x13#32).toNat % 16 = 3 ∧ 2 ^ 4 ≤ (0x13#32).toNat) ∧
    (4 ≤ (0x804#32).toNat % 16 ∧ (0x806#32).toNat % 16 ≤ 6 ∧ 2 ^ 11 ≤ (0x804#32).toNat) ∧
    (let s := idleWith true 0x13#32 Operands.none
     s.resetAsserted = false ∧ s.pc = .idle ∧ s.host = [⟨0x13#32, Operands.none⟩] ∧
       decode 0x13#32 = .error .rfRsvd) := by decide

/-- The boundary of R102, and both values of `DUTY_BIT_STD`. -/
theorem witness_ResolvedTimingByCases :
    (100000#32 : Word) ≠ 0 ∧ (resolveTiming { params with dutyBitStd := .zero } 0 100000 .lowDuty36).fs = 0#1 ∧
    (100001#32 : Word) ≠ 0 ∧ (resolveTiming params 0xFFFFFFFF 100001 .lowDuty36).fs = 1#1 := by decide

theorem witness_ResolverNeverOverflows :
    (1 ≤ (1#32).toNat ∧ (1#32).toNat ≤ 1000000) ∧ (1 ≤ (1000000#32).toNat ∧ (1000000#32).toNat ≤ 1000000) := by decide

theorem witness_FrequencyField : (busyIn .openEngine (.o .o8) []).pc = .o .o8 := rfl

theorem witness_ResolveAcceptedAndPosted :
    (let o := timingOperands 8000000 1
     let s := idleWith false 0x11#32 o
     s.pc = .idle ∧ s.host = [⟨0x11#32, o⟩] ∧ 1 ≤ o.speed.toNat ∧ o.speed.toNat ≤ 1000000) ∧
    (busyIn .resolve .s1 []).pc = .s1 := by decide

theorem witness_ResolveCompletes :
    let o := timingOperands 8000000 1000000
    let s := idleWith true (encode (.resolve .lowDuty36)) o
    s.resetPin = [] ∧ s.pc = .idle ∧ s.host = [⟨encode (.resolve .lowDuty36), o⟩] ∧
      1 ≤ o.speed.toNat ∧ o.speed.toNat ≤ 1000000 := by decide

theorem witness_OpenOwnership :
    (let o := timingOperands 8000000 1
     let s := idleWith false 0x62#32 o
     s.pc = .idle ∧ s.host = [⟨0x62#32, o⟩] ∧ s.owned = false ∧ 1 ≤ o.speed.toNat ∧ o.speed.toNat ≤ 1000000) ∧
    (let s := idleWith true 0x62#32 (timingOperands 8000000 0)
     s.pc = .idle ∧ s.host = [⟨0x62#32, timingOperands 8000000 0⟩] ∧ s.owned = true) ∧
    (let s := { busyIn .openEngine (.o .o1) [.value 0] with host := [⟨0x62#32, timingOperands 8000000 1⟩] }
     s.host = [⟨0x62#32, timingOperands 8000000 1⟩] ∧ s.pc ≠ .idle ∧
       phaseOf (exec (.openEngine 3 .lowDuty33) s) = some (.o .o2)) := by decide

theorem witness_OpenPhases (p : OpenPhase) : (busyIn .openEngine (.o p) []).pc = .o p := rfl

theorem witness_OpenCompletes :
    let o := timingOperands 8000000 1000000
    let s := idleWith false (encode (.openEngine 3 .lowDuty33)) o
    s.resetPin = [] ∧ s.pc = .idle ∧ s.owned = false ∧ s.host = [⟨encode (.openEngine 3 .lowDuty33), o⟩] ∧
      1 ≤ o.speed.toNat ∧ o.speed.toNat ≤ 1000000 := by decide

theorem witness_OpenFieldsBitByBit : (0 < 32) ∧ (11 < 32) ∧ (12 < 32) ∧ (31 < 32) := by decide

theorem witness_EqualOpensRecordEqualTraces :
    let o := timingOperands 8000000 100000
    let w := encode (.openEngine 0 .lowDuty33)
    let vs : List Word := List.replicate 11 0xFFFFFFFF#32
    let s := { idleWith false w o with answers := vs.map .value }
    let s' := { idleWith false w o with answers := vs.map .value, refused := true, env := ⟨1, 1, 1, 1, 1, 1, 1, 1, 1, 1, 1, 1⟩ }
    s.resetPin = [] ∧ s.pc = .idle ∧ s.owned = false ∧ s.host = [⟨w, o⟩] ∧
    s'.resetPin = [] ∧ s'.pc = .idle ∧ s'.owned = false ∧ s'.host = [⟨w, o⟩] ∧
    1 ≤ o.speed.toNat ∧ o.speed.toNat ≤ 1000000 ∧ vs.length = 11 ∧ s.answers = vs.map .value ++ [] ∧
    s'.answers = vs.map .value ++ [] := by decide

theorem witness_CloseAcceptedAndDone :
    (let s := idleWith true 3#32 Operands.none
     s.pc = .idle ∧ s.host = [⟨3#32, Operands.none⟩] ∧ s.owned = true) ∧
    (let s := idleWith false 3#32 Operands.none
     s.pc = .idle ∧ s.host = [⟨3#32, Operands.none⟩] ∧ s.owned = false) ∧
    (busyIn .closeEngine .c1 []).pc = .c1 := by decide

/-- A CLOSE about to end. -/
theorem closing_inv : (busyIn .closeEngine .c1 []).Inv := ⟨⟨rfl, rfl⟩, dataOk_fresh rfl rfl rfl⟩
/-- A WRITE of no bytes about to post. -/
theorem ending_write_inv : (busyIn .write (.w .w9) []).Inv :=
  ⟨⟨rfl, rfl, .inl ⟨rfl, rfl⟩⟩, dataOk_fresh rfl rfl rfl⟩
/-- A WRITE at its first poll. -/
theorem first_poll_inv (a : List Answer) : (busyIn .write (.w .w1) a).Inv :=
  ⟨⟨rfl, trivial, .inl ⟨rfl, rfl⟩⟩, dataOk_fresh rfl rfl rfl⟩
/-- An idle block that owns nothing, with a command at its port. -/
theorem idle_inv (owned : Bool) (w : Word) (o : Operands) : (idleWith owned w o).Inv :=
  ⟨trivial, dataOk_fresh rfl rfl rfl⟩

/-- Both steps that move the resources; the first is the acceptance of an OPEN. -/
theorem witness_ResourcesMoveOnlyAtOpenAndClose :
    (∃ t, (idleWith false 2#32 (timingOperands 8000000 100000)).Inv ∧
      (idleWith false 2#32 (timingOperands 8000000 100000)).resetAsserted = false ∧
      step (idleWith false 2#32 (timingOperands 8000000 100000)) = .next t ∧
      acceptedIn (idleWith false 2#32 (timingOperands 8000000 100000)) t [.openEngine] ∧
      t.holder .sclPin ≠ (idleWith false 2#32 (timingOperands 8000000 100000)).holder .sclPin) ∧
    (∃ t, (busyIn .closeEngine .c1 []).Inv ∧ (busyIn .closeEngine .c1 []).resetAsserted = false ∧
      step (busyIn .closeEngine .c1 []) = .next t ∧ (busyIn .closeEngine .c1 []).pc = .c1 ∧
      t.holder .sclPin ≠ (busyIn .closeEngine .c1 []).holder .sclPin) :=
  ⟨⟨_, idle_inv _ _ _, rfl, rfl, ⟨rfl, _, .openEngine 0 .lowDuty33, rfl, by decide, by decide, by decide, rfl, rfl⟩,
      by decide⟩,
    ⟨_, closing_inv, rfl, rfl, rfl, by decide⟩⟩

theorem witness_WaitsIgnoreErrorFlags :
    pollOf (.w .w7) = some (pBtf params) ∧ 0x0F84#32 &&& ~~~0x0F00#32 = 0x0084#32 &&& ~~~0x0F00#32 := ⟨rfl, by decide⟩

theorem witness_PollIteration :
    ((busyIn .write (.w .w1) [half 0, half 2]).Inv ∧ (busyIn .write (.w .w1) [half 0, half 2]).resetAsserted = false ∧
      pIdle params (busyIn .write (.w .w1) [half 0, half 2]).snap1 (busyIn .write (.w .w1) [half 0, half 2]).snap2 = false) ∧
    ((busyIn .write (.w .w1) [half 2, half 0]).Inv ∧ (busyIn .write (.w .w1) [half 2, half 0]).resetAsserted = false ∧
      pIdle params (busyIn .write (.w .w1) [half 2, half 0]).snap1 (busyIn .write (.w .w1) [half 2, half 0]).snap2 = true) :=
  ⟨⟨first_poll_inv _, rfl, by decide⟩, ⟨first_poll_inv _, rfl, by decide⟩⟩

/-- T-W5 for two steps. -/
theorem witness_PollHangsWhileUnsatisfied :
    (busyIn .write (.w .w1) [half 0, half 2, half 1, half 2]).Inv ∧
    (busyIn .write (.w .w1) [half 0, half 2, half 1, half 2]).resetPin = [] ∧ pollOf (.w .w1) = some (pIdle params) ∧
    (∀ x ∈ [(⟨0, 2⟩ : Snap), ⟨1, 2⟩], x.sat (pIdle params) = false) ∧
    (busyIn .write (.w .w1) [half 0, half 2, half 1, half 2]).answers =
      [(⟨0, 2⟩ : Snap), ⟨1, 2⟩].flatMap Snap.answers ++ [] :=
  ⟨first_poll_inv _, rfl, rfl, by decide, by decide⟩

theorem witness_TransactionsAccepted :
    let o := bytesOperands [1] [0]
    let s := idleWith true 0x504#32 o
    s.pc = .idle ∧ s.owned = true ∧ s.host = [⟨0x504#32, o⟩] := by decide

/-- The clause of W6D at the last byte, and the others by their phase. -/
theorem witness_WritePhases (p : WritePhase) :
    (busyIn .write (.w p) []).pc = .w p ∧
    (let s := { busyIn .write (.w .w6d) [] with wdata := [1, 2], i := 1 }
     s.pc = .w .w6d ∧ s.wdata[s.i]? = some 2) := ⟨rfl, rfl, rfl⟩

/-- The clause of R6D at the last slot, and the others by their phase. -/
theorem witness_ReadPhases (p : ReadPhase) :
    (busyIn .read (.r p) []).pc = .r p ∧
    (let s := { busyIn .read (.r .r6d) [] with m := 2, rbuf := [1, 2], i := 1 }
     s.pc = .r .r6d ∧ s.i < s.rbuf.length) := ⟨rfl, rfl, by decide⟩

theorem witness_AddressByteValue :
    (let s := { busyIn .write (.w .w4) [] with a7 := 0x7F }
     s.a7 = 0x7F ∧ s.pc = .w .w4) ∧
    (let s := { busyIn .read (.r .r4) [] with a7 := 0x7F }
     s.a7 = 0x7F ∧ s.pc = .r .r4) := by decide

theorem writeScript_exits (e9 : BitVec 16) : (writeScript e9).exits 2 := by
  have h : (writeScript 0).exits 2 := by
    unfold WriteScript.exits PollScript.exits
    exact ⟨by decide, by decide, by decide, by decide, by decide, by decide⟩
  exact h
theorem readScript_exits : readScript.exits 1 := by
  unfold ReadScript.exits PollScript.exits
  exact ⟨by decide, by decide, by decide, by decide, by decide⟩

/-- The two readings differ where TxE alone is clear (T-R2). -/
theorem witness_AddressWaitUnderBothParameters :
    let s := { busyIn .read (.r .r5) [.value 2#32, .value 3#32] with m := 1, rbuf := [0] }
    s.pc = .r .r5 ∧ phaseOf (execAt { params with readAddrWaitTxe := true } (.read 0) s) = some (.r .r5) ∧
      phaseOf (execAt { params with readAddrWaitTxe := false } (.read 0) s) = some (.r .r6r) := by decide

theorem witness_WriteRunsToItsEnd :
    let o := bytesOperands [0x01, 0xAB] []
    let s := { idleWith true (encode (.write 0x50)) o with answers := (writeScript 0).answers }
    s.resetPin = [] ∧ s.pc = .idle ∧ s.owned = true ∧ s.host = [⟨encode (.write 0x50), o⟩] ∧
      (writeScript 0).exits o.wdata.length ∧ s.answers = (writeScript 0).answers ++ [] :=
  ⟨rfl, rfl, rfl, rfl, writeScript_exits 0, by simp⟩

theorem witness_ReadRunsToItsEnd :
    let o := bytesOperands [] [0x99]
    let s := { idleWith true (encode (.read 0x48)) o with answers := readScript.answers }
    s.resetPin = [] ∧ s.pc = .idle ∧ s.owned = true ∧ s.host = [⟨encode (.read 0x48), o⟩] ∧
      readScript.exits o.rbuf.length ∧ s.answers = readScript.answers ++ [] :=
  ⟨rfl, rfl, rfl, rfl, readScript_exits, by simp⟩

theorem witness_WriteReadStopsAtAWriteError :
    let o := bytesOperands [0x75, 0x76] [0xEE]
    let s := { idleWith true (encode (.writeRead 0x68)) o with answers := (writeScript 0x0100).answers }
    s.resetPin = [] ∧ s.pc = .idle ∧ s.owned = true ∧ s.host = [⟨encode (.writeRead 0x68), o⟩] ∧
      (writeScript 0x0100).exits o.wdata.length ∧ classify ((writeScript 0x0100).e9.setWidth 32) ≠ .ok ∧
      s.answers = (writeScript 0x0100).answers ++ [] :=
  ⟨rfl, rfl, rfl, rfl, writeScript_exits _, by decide, by simp⟩

theorem witness_WriteReadRunsBothHalves :
    let o := bytesOperands [0x75, 0x76] [0xEE]
    let s := { idleWith true (encode (.writeRead 0x68)) o with answers := (writeScript 0).answers ++ readScript.answers }
    s.resetPin = [] ∧ s.pc = .idle ∧ s.owned = true ∧ s.host = [⟨encode (.writeRead 0x68), o⟩] ∧
      (writeScript 0).exits o.wdata.length ∧ classify ((writeScript 0).e9.setWidth 32) = .ok ∧
      readScript.exits o.rbuf.length ∧ s.answers = (writeScript 0).answers ++ readScript.answers ++ [] :=
  ⟨rfl, rfl, rfl, rfl, writeScript_exits _, by decide, readScript_exits, by simp⟩

theorem witness_CompletedWriteShape :
    ∃ t, shortWrite.Inv ∧ shortWrite.resetPin = [] ∧ shortWrite.pc = .w .w1 ∧ shortWrite.current = .write 0x3C ∧
      (∀ j < 8, ∀ u, runFor j shortWrite = .next u → u.pc ≠ .idle) ∧ runFor 8 shortWrite = .next t ∧ t.pc = .idle := by
  have hb : ∀ j < 8, stillBusy (runFor j shortWrite) = true := by decide
  exact ⟨_, ⟨⟨rfl, trivial, .inl ⟨rfl, rfl⟩⟩, dataOk_fresh rfl rfl rfl⟩, rfl, rfl, rfl,
    fun j hj u hu => not_idle_of_stillBusy (hb j hj) hu, rfl, by decide⟩

theorem witness_CompletedReadShape :
    ∃ t, shortRead.Inv ∧ shortRead.resetPin = [] ∧ shortRead.pc = .r .r1 ∧ shortRead.current = .read 0x48 ∧
      (∀ j < 7, ∀ u, runFor j shortRead = .next u → u.pc ≠ .idle) ∧ runFor 7 shortRead = .next t ∧ t.pc = .idle := by
  have hb : ∀ j < 7, stillBusy (runFor j shortRead) = true := by decide
  exact ⟨_, ⟨⟨rfl, trivial, rfl, rfl, .inl rfl⟩, dataOk_fresh rfl rfl rfl⟩, rfl, rfl, rfl,
    fun j hj u hu => not_idle_of_stillBusy (hb j hj) hu, rfl, by decide⟩

/-- A poll that passes, for each of the three phases guarded. -/
theorem witness_NoAccessOvertakesItsPoll :
    (∃ t, { busyIn .write (.w .w6t) [half 0x80, half 7] with wdata := [1] }.Inv ∧
      step { busyIn .write (.w .w6t) [half 0x80, half 7] with wdata := [1] } = .next t ∧ t.pc = .w .w6d) ∧
    (∃ t, (busyIn .write (.w .w7) [half 0x84, half 7]).Inv ∧
      step (busyIn .write (.w .w7) [half 0x84, half 7]) = .next t ∧ t.pc = .w .w8) ∧
    (∃ t, { busyIn .read (.r .r6r) [half 0x40, half 3] with m := 1, rbuf := [0] }.Inv ∧
      step { busyIn .read (.r .r6r) [half 0x40, half 3] with m := 1, rbuf := [0] } = .next t ∧ t.pc = .r .r6d) :=
  ⟨⟨_, ⟨⟨rfl, Nat.one_pos, .inl ⟨rfl, rfl⟩⟩, dataOk_fresh rfl rfl rfl⟩, rfl, by decide⟩,
   ⟨_, ⟨⟨rfl, rfl, .inl ⟨rfl, rfl⟩⟩, dataOk_fresh rfl rfl rfl⟩, rfl, by decide⟩,
   ⟨_, ⟨⟨rfl, Nat.one_pos, rfl, rfl, .inl rfl⟩, dataOk_fresh rfl rfl rfl⟩, rfl, by decide⟩⟩

theorem witness_OnlyTheAnswersMatter :
    fits .star1 0xFFFF#32 ∧
    (∃ t, (busyIn .write (.w .w1) [.value 0, .value 2]).answers = [.value 0, .value 2] ∧
      step (busyIn .write (.w .w1) [.value 0, .value 2]) = .next t) :=
  ⟨rfl, _, rfl, rfl⟩

/-- One state serves the whole-machine rules over `State.Inv`: a WRITE that posts at W9. -/
theorem witness_TransitionTable :
    ∃ t, (busyIn .write (.w .w9) []).Inv ∧ (busyIn .write (.w .w9) []).resetAsserted = false ∧
      step (busyIn .write (.w .w9) []) = .next t := ⟨_, ending_write_inv, rfl, rfl⟩

theorem witness_OneMicroOperationPerStep : ∃ t, step (busyIn .closeEngine .c1 []) = .next t := ⟨_, rfl⟩

theorem witness_StatusReadsStayPaired :
    ∃ t, pairedReads (busyIn .write (.w .w1) []).trace = true ∧ step (busyIn .write (.w .w1) []) = .next t :=
  ⟨_, rfl, rfl⟩

theorem witness_StatusRegistersNeverWritten :
    ∃ t ev, step (busyIn .write (.w .w1) []) = .next t ∧ t.trace = (busyIn .write (.w .w1) []).trace ++ ev :=
  ⟨_, _, rfl, rfl⟩

/-- A CLOSE, in an environment where the two registers hold other values than at reset. -/
theorem witness_UnaccessedRegistersKeepTheirValues :
    ∃ t, step { busyIn .closeEngine .c1 [.value 1] with env := { EnvRegs.zero with oaddr1 := 1, oaddr2 := 2 } } =
        .next t ∧
      t.trace = [] ++ [.rd .ctlr1 1#32, .wr .ctlr1 0#32] ∧ t.env.oaddr1 = 1 ∧ t.env.oaddr2 = 2 :=
  ⟨_, rfl, by decide, rfl, rfl⟩

/-- A read-modify-write, and a write of DATAR. -/
theorem witness_OpaqueBitsWrittenBack :
    (∃ t, step (busyIn .closeEngine .c1 [.value 0xFFFF]) = .next t ∧
      t.trace = [] ++ [.rd .ctlr1 0xFFFF#32, .wr .ctlr1 0xFFFE#32]) ∧
    (∃ t, step (busyIn .write (.w .w4) []) = .next t ∧ t.trace = [] ++ [.wr .datar 0#32]) :=
  ⟨⟨_, rfl, by decide⟩, ⟨_, rfl, by decide⟩⟩

/-- One state for each control bit that changes. -/
theorem witness_ControlBitsChangeOnlyInTheirPhases :
    (∃ t, step (busyIn .closeEngine .c1 [.value 1]) = .next t ∧ t.trace = [] ++ [.rd .ctlr1 1#32, .wr .ctlr1 0#32]) ∧
    (∃ t, step (busyIn .openEngine (.o .o11) [.value 0]) = .next t ∧
      t.trace = [] ++ [.rd .ctlr1 0#32, .wr .ctlr1 0x400#32]) ∧
    (∃ t, step (busyIn .write (.w .w2) [.value 0]) = .next t ∧
      t.trace = [] ++ [.rd .ctlr1 0#32, .wr .ctlr1 0x100#32]) ∧
    (∃ t, step (busyIn .read (.r .r7) [.value 0]) = .next t ∧
      t.trace = [] ++ [.rd .ctlr1 0#32, .wr .ctlr1 0x200#32]) ∧
    (∃ t, step (busyIn .openEngine (.o .o5) [.value 0]) = .next t ∧
      t.trace = [] ++ [.rd .ctlr1 0#32, .wr .ctlr1 0x8000#32]) :=
  ⟨⟨_, rfl, by decide⟩, ⟨_, rfl, by decide⟩, ⟨_, rfl, by decide⟩, ⟨_, rfl, by decide⟩, ⟨_, rfl, by decide⟩⟩

/-- One state for each clause: the acceptances of OPEN, WRITE_READ and READ, the steps O9, C1, W5, W9, S1, and a refusal. -/
theorem witness_RegistersWrittenOnlyWhereListed :
    ((nextOf (step (idleWith false 0x72#32 (timingOperands 8000000 1000000)))).map
      (fun t => (t.owned, t.op, t.pclk, t.speed, t.dutySel, t.remap)) =
        some (true, .openEngine, 8000000, 1000000, .lowDuty36, 3)) ∧
    ((nextOf (step (idleWith true 0x7F6#32 (bytesOperands [1] [2, 3])))).map
      (fun t => (t.op, t.a7, t.wdata, t.m, t.thenRead)) = some (.writeRead, 0x7F, [1], 2, true)) ∧
    ((nextOf (step { idleWith true 0x15#32 (bytesOperands [] [2]) with thenRead := true })).map
      (fun t => (t.op, t.a7, t.m, t.thenRead)) = some (.read, 1, 1, false)) ∧
    ((nextOf (step (busyIn .openEngine (.o .o9) []))).map State.timing = some ⟨40, 0, 0⟩) ∧
    ((nextOf (step (busyIn .closeEngine .c1 []))).map (fun t => (t.owned, t.res.done)) = some (false, true)) ∧
    ((nextOf (step { busyIn .write (.w .w5) [.value 0x82, .value 7] with i := 5 })).map State.i = some 0) ∧
    ((nextOf (step { busyIn .writeRead (.w .w9) [.value 0] with thenRead := true })).map State.thenRead = some false) ∧
    ((nextOf (step (busyIn .resolve .s1 []))).map (fun t => t.res.div) = some 40) ∧
    ((nextOf (step (idleWith false 3#32 Operands.none))).map State.refused = some true) :=
  ⟨by decide, by decide, by decide, by decide, by decide, by decide, by decide, by decide, by decide⟩

/-- Both ways RBUF changes, the first by a READ and by a WRITE_READ. -/
theorem witness_ReadBufferWrittenSlotBySlot :
    (∃ t, (idleWith true 0x485#32 (bytesOperands [] [9])).resetAsserted = false ∧
      step (idleWith true 0x485#32 (bytesOperands [] [9])) = .next t ∧ t.rbuf ≠ []) ∧
    (∃ t, (idleWith true 0x486#32 (bytesOperands [1] [9])).resetAsserted = false ∧
      step (idleWith true 0x486#32 (bytesOperands [1] [9])) = .next t ∧ t.rbuf ≠ []) ∧
    (∃ t, ({ busyIn .read (.r .r6d) [.value 5] with m := 1, rbuf := [0] } : State).resetAsserted = false ∧
      step { busyIn .read (.r .r6d) [.value 5] with m := 1, rbuf := [0] } = .next t ∧ t.rbuf ≠ [0]) :=
  ⟨⟨_, rfl, rfl, by decide⟩, ⟨_, rfl, rfl, by decide⟩, ⟨_, rfl, rfl, by decide⟩⟩

theorem witness_HostHasNoMoveWhileBusy :
    ∃ t, (busyIn .write (.w .w1) []).pc ≠ .idle ∧ step (busyIn .write (.w .w1) []) = .next t := ⟨_, by decide, rfl⟩

/-- One state for each clause: the last steps of a WRITE, a READ, a WRITE_READ that its write half ends and a RESOLVE; a
step before the last; a refusal while a result is seen; and a reset in the middle of a READ. -/
theorem witness_HostSeesOnlyPostedResults :
    ((nextOf (step (busyIn .write (.w .w9) [.value 0x0400]))).map State.hostSees =
      some (some ⟨⟨true, .acknowledgeFailure, 0, 0, 0⟩, none⟩)) ∧
    ((nextOf (step { busyIn .read (.r .r8) [.value 0] with rbuf := [7] })).map State.hostSees =
      some (some ⟨⟨true, .ok, 0, 0, 0⟩, some [7]⟩)) ∧
    ((nextOf (step { busyIn .writeRead (.w .w9) [.value 0x0100] with thenRead := true, rbuf := [0xEE] })).map
      State.hostSees = some (some ⟨⟨true, .busError, 0, 0, 0⟩, some [0xEE]⟩)) ∧
    ((nextOf (step (busyIn .resolve .s1 []))).map State.hostSees = some (some ⟨⟨true, .ok, 40, 0, 0⟩, none⟩)) ∧
    ((nextOf (step { busyIn .write (.w .w8) [] with res := ⟨true, .ok, 0, 0, 0⟩ })).map State.hostSees = some none) ∧
    (let s := { idleWith true 2#32 (timingOperands 8000000 0) with op := .read, rbuf := [7], res := ⟨true, .ok, 0, 0, 0⟩ }
     (nextOf (step s)).map State.hostSees = some s.hostSees ∧ s.hostSees ≠ none) ∧
    ((nextOf (step { busyIn .read (.r .r6r) [] with rbuf := [7], resetPin := [true] })).map State.hostSees =
      some none) :=
  ⟨by decide, by decide, by decide, by decide, by decide, by decide, by decide⟩

theorem witness_WrongOwnershipIsRefused :
    (let s := idleWith true 2#32 (timingOperands 8000000 100000)
     s.pc = .idle ∧ s.host = [⟨2#32, timingOperands 8000000 100000⟩] ∧ s.owned = true) ∧
    (let s := idleWith false 3#32 Operands.none
     s.pc = .idle ∧ s.host = [⟨3#32, Operands.none⟩] ∧ s.owned = false) := by decide

/-- Both ends of the range, from outside and from inside. -/
theorem witness_SpeedOutsideRangeIsRefused :
    (let o := timingOperands 8000000 0
     (idleWith false 1#32 o).pc = .idle ∧ (idleWith false 1#32 o).host = [⟨1#32, o⟩] ∧ o.speed.toNat = 0) ∧
    (let o := timingOperands 8000000 1000001
     (idleWith false 2#32 o).pc = .idle ∧ (idleWith false 2#32 o).host = [⟨2#32, o⟩] ∧
       (idleWith false 2#32 o).owned = false ∧ 1000000 < o.speed.toNat) ∧
    (let o := timingOperands 0 1
     (idleWith true 1#32 o).pc = .idle ∧ (idleWith true 1#32 o).host = [⟨1#32, o⟩] ∧ 1 ≤ o.speed.toNat ∧
       o.speed.toNat ≤ 1000000) ∧
    (1 ≤ (timingOperands 0 1000000).speed.toNat ∧ (timingOperands 0 1000000).speed.toNat ≤ 1000000) := by decide

/-- A refused command and an admitted one. -/
theorem witness_RefusalsAndTheirOrder :
    decode 0x13#32 = .error .rfRsvd ∧ decode 3#32 = .ok .closeEngine ∧
    (let s := idleWith false 3#32 Operands.none
     s.resetAsserted = false ∧ s.pc = .idle ∧ s.host = [⟨3#32, Operands.none⟩] ∧
       portRefusal ⟨3#32, Operands.none⟩ s.owned ≠ none) ∧
    (let s := idleWith true 3#32 Operands.none
     s.resetAsserted = false ∧ s.pc = .idle ∧ s.host = [⟨3#32, Operands.none⟩] ∧
       portRefusal ⟨3#32, Operands.none⟩ s.owned = none) := by decide

theorem witness_BlockReset : { busyIn .write (.w .w5) [] with resetPin := [true] }.resetPin = true :: [] := rfl

/-- A reset in the middle of a CLOSE, with a RESOLVE and with an OPEN waiting. -/
theorem witness_OnlyResolveAndOpenAfterReset :
    (∃ t u, ({ busyIn .closeEngine .c1 [] with
        resetPin := [true], host := [⟨1#32, timingOperands 0 1⟩] } : State).resetAsserted = true ∧
      step { busyIn .closeEngine .c1 [] with resetPin := [true], host := [⟨1#32, timingOperands 0 1⟩] } = .next t ∧
      t.resetAsserted = false ∧ step t = .next u ∧ u.pc ≠ .idle) ∧
    (∃ t u, ({ busyIn .closeEngine .c1 [] with
        resetPin := [true], host := [⟨2#32, timingOperands 0 1⟩] } : State).resetAsserted = true ∧
      step { busyIn .closeEngine .c1 [] with resetPin := [true], host := [⟨2#32, timingOperands 0 1⟩] } = .next t ∧
      t.resetAsserted = false ∧ step t = .next u ∧ u.pc ≠ .idle) :=
  ⟨⟨_, _, rfl, rfl, rfl, rfl, by decide⟩, ⟨_, _, rfl, rfl, rfl, rfl, by decide⟩⟩

/-- An idle block that accepts a command, and one that waits, whatever `op` holds. -/
theorem witness_ResetValues :
    (∃ t, ({ idleWith true 3#32 Operands.none with op := .read } : State).resetAsserted = false ∧
      step { idleWith true 3#32 Operands.none with op := .read } = .next t ∧ t.pc ≠ .idle) ∧
    (∃ t, State.reset.resetAsserted = false ∧ State.reset.pc = .idle ∧ step State.reset = .next t ∧ t.pc = .idle) :=
  ⟨⟨_, rfl, rfl, by decide⟩, ⟨_, rfl, rfl, rfl, rfl⟩⟩

theorem witness_StepRunsTheDecodedCommand :
    let s := idleWith true 0x504#32 (bytesOperands [1] [])
    s.resetAsserted = false ∧ s.pc = .idle ∧ s.host = [⟨0x504#32, bytesOperands [1] []⟩] ∧
      decode 0x504#32 = .ok (.write 0x50) := by decide

/-- A running command, and one that is accepted. -/
theorem witness_StepRunsTheRunningCommand :
    ((busyIn .closeEngine .c1 []).Inv ∧ (busyIn .closeEngine .c1 []).resetAsserted = false ∧
      (busyIn .closeEngine .c1 []).pc ≠ .idle) ∧
    (let o := timingOperands 8000000 100000
     let s := idleWith false 0x72#32 o
     s.Inv ∧ s.resetAsserted = false ∧ s.pc = .idle ∧ s.host = [⟨0x72#32, o⟩] ∧
       decode 0x72#32 = .ok (.openEngine 3 .lowDuty36) ∧ refusalOf (.openEngine 3 .lowDuty36) s.owned o = none) :=
  ⟨⟨closing_inv, rfl, by decide⟩, idle_inv _ _ _, rfl, rfl, rfl, by decide, by decide⟩

theorem witness_IdleBlockWaits :
    State.reset.resetAsserted = false ∧ State.reset.pc = .idle ∧ State.reset.host = [] := by decide

theorem witness_StepKeepsTheInvariant :
    ∃ t, (busyIn .write (.w .w9) []).Inv ∧ step (busyIn .write (.w .w9) []) = .next t := ⟨_, ending_write_inv, rfl⟩

theorem witness_NoStepEverStops : (busyIn .write (.w .w9) []).Inv := ending_write_inv

end Sys2Proof.Tests
end

namespace Sys2Proof.Machine

/-! ## What each kind of step answers

`step_next` lists the kinds of step backwards, from the state answered; these say the same forwards. -/

/-- R200: a step with the reset input asserted. -/
theorem step_reset {s : State} (h : s.resetAsserted = true) : step s = .next s.clockPin.blockReset := by
  simp [step, stepBy, h]

/-- R22: a step of an idle block with no command at its port. -/
theorem step_waits {s : State} (hr : s.resetAsserted = false) (hp : s.pc = .idle) (hh : s.host = []) :
    step s = .next s.clockPin := by
  rw [step_eq_run hr]
  simp [State.runBy, hp, hh]

/-- R184: a step of an idle block that refuses the command at its port, for a reason of the word or of the operands. -/
theorem step_refused {s : State} {c : Command} {rest : List Command} (hr : s.resetAsserted = false)
    (hp : s.pc = .idle) (hh : s.host = c :: rest) (hc : portRefusal c s.owned ≠ none) :
    step s = .next s.clockPin.refuse := by
  cases hd : decode c.word with
  | error e =>
    rw [step_eq_run hr]
    simp [State.runBy, hp, hh, hd]
  | ok i =>
    have hi : refusalOf i s.owned c.operands ≠ none := by simpa [portRefusal, hd] using hc
    obtain ⟨e, he⟩ := Option.ne_none_iff_exists'.mp hi
    rw [step_port hr hp hh hd]
    exact exec_refused hp hh he

/-- R70: a step of an idle block that accepts the command at its port. -/
theorem step_accepted {s : State} {c : Command} {rest : List Command} {i : Instr} (hr : s.resetAsserted = false)
    (hp : s.pc = .idle) (hh : s.host = c :: rest) (hd : decode c.word = .ok i)
    (hc : refusalOf i s.owned c.operands = none) :
    step s = .next (acceptance i c.operands s.clockPin.takeCommand) := by
  rw [step_port hr hp hh hd]
  exact exec_accepted hp hh hc

/-- Settles O56: the waiting step moves the reset input on and does nothing else. -/
theorem idleBlockWaits : Obligations.IdleBlockWaits :=
  fun _ hr hp hh => step_waits hr hp hh

/-- Settles O55: `exec` is `execAt` at the spec's parameters, and a step uses nothing else of the commands' meanings. -/
theorem stepIsTheModelAtTheSpecsParameters : Obligations.StepIsTheModelAtTheSpecsParameters := by
  intro s
  have hexec : exec = execAt params := funext₂ exec_eq_execAt
  exact ⟨congrArg (stepBy · s) hexec, fun i => exec_eq_execAt i s⟩

/-! ## What an acceptance latches -/

@[simp] theorem acceptance_op (i : Instr) (o : Operands) (s : State) : (acceptance i o s).op = i.opcode := by
  cases i <;> rfl

@[simp] theorem acceptance_pc (i : Instr) (o : Operands) (s : State) :
    (acceptance i o s).pc = firstPhase i.opcode := by
  cases i <;> rfl

/-- R21: the accepted command is the one the latched registers name. -/
@[simp] theorem acceptance_current (i : Instr) (o : Operands) (s : State) : (acceptance i o s).current = i := by
  cases i <;> rfl

/-- R26: only OPEN takes the resources at its acceptance. -/
theorem acceptance_owned (i : Instr) (o : Operands) (s : State) :
    (acceptance i o s).owned = if i.opcode = .openEngine then true else s.owned := by
  cases i <;> rfl

/-- R32: every acceptance latches `op`, so what it held before is lost. -/
theorem acceptance_set_op (i : Instr) (o : Operands) (s : State) (x : Opcode) :
    acceptance i o { s with op := x } = acceptance i o s := by
  cases i <;> rfl

theorem firstPhase_ne_idle (x : Opcode) : firstPhase x ≠ .idle := by
  cases x <;> simp [firstPhase]

/-- Settles O52: an idle step waits, refuses or accepts, and none of the three looks at `op`; only the acceptance,
which leaves IDLE, writes it. -/
theorem resetValues : Obligations.ResetValues := by
  refine ⟨by decide, fun s t x hr hp h => ?_⟩
  rcases step_next h with ⟨hr', -⟩ | ⟨-, -, hh, rfl⟩ | ⟨-, -, ⟨c, rest, hh, hc⟩, rfl⟩ |
    ⟨-, -, c, rest, i, hh, hd, hc, rfl⟩ | ⟨-, hp', -⟩
  · exact absurd (hr.symm.trans hr') Bool.false_ne_true
  · exact (step_waits (s := { s with op := x }) hr hp hh).trans (congrArg _ (if_pos hp).symm)
  · exact (step_refused (s := { s with op := x }) hr hp hh hc).trans (congrArg _ (if_pos hp).symm)
  · rw [step_accepted (s := { s with op := x }) hr hp hh hd hc,
      if_neg (by simpa using firstPhase_ne_idle i.opcode)]
    exact congrArg _ (acceptance_set_op i c.operands s.clockPin.takeCommand x)
  · exact absurd hp hp'

/-! ## Which registers a running phase leaves as they are -/

/-- `t` is `s` but for the registers and records that the phases of a command write (R21): in particular it has the
ownership, the running command and its operands. -/
def State.SameCommand (s t : State) : Prop :=
  t = { s with
    pc := t.pc, i := t.i, thenRead := t.thenRead, timing := t.timing, res := t.res, rbuf := t.rbuf,
    env := t.env, answers := t.answers, reads := t.reads, trace := t.trace }

theorem sameCommand_owned {s t : State} (h : s.SameCommand t) : t.owned = s.owned := by
  rw [h]

theorem sameCommand_current {s t : State} (h : s.SameCommand t) : t.current = s.current := by
  rw [h]
  rfl

theorem openPhase_sameCommand (p : OpenPhase) (s : State) : s.SameCommand (openPhase p s) := by
  cases p <;> rfl

theorem endWrite_sameCommand (s : State) : s.SameCommand s.endWrite := by
  unfold State.endWrite
  split <;> rfl

theorem writePhase_sameCommand {p : WritePhase} {s t : State} (h : writePhase p s = .next t) : s.SameCommand t := by
  cases p <;> simp only [writePhase, poll_goto, poll_startWriteData] at h
  case w6d =>
    split at h <;> cases h
    rfl
  case w5 =>
    cases h
    split <;> rfl
  case w9 =>
    cases h
    exact endWrite_sameCommand s
  all_goals
    cases h
    rfl

theorem readPhase_sameCommand {p : ReadPhase} {s t : State} (h : readPhase p s = .next t) : s.SameCommand t := by
  cases p <;> simp only [readPhase, poll_goto, poll_startReadData] at h
  case r6d =>
    split at h <;> cases h
    rfl
  case r5 =>
    cases h
    split <;> rfl
  all_goals
    cases h
    rfl

/-- Every running phase but C1, which gives the resources up, keeps the ownership and the command. -/
theorem phaseStep_sameCommand {s t : State} (hp : s.pc ≠ .c1) (h : phaseStep s = .next t) : s.SameCommand t := by
  unfold phaseStep at h
  split at h
  · cases h
  · cases h
    rfl
  · cases h
    exact openPhase_sameCommand _ s
  · rename_i hc
    exact absurd hc hp
  · exact writePhase_sameCommand h
  · exact readPhase_sameCommand h

theorem phaseStep_c1 {s t : State} (hp : s.pc = .c1) (h : phaseStep s = .next t) : t = closePhase s := by
  simp only [phaseStep, hp] at h
  cases h
  rfl

/-- R21, R56: the running command stays the running one. -/
theorem phaseStep_current {s t : State} (h : phaseStep s = .next t) : t.current = s.current := by
  by_cases hp : s.pc = .c1
  · rw [phaseStep_c1 hp h]
    rfl
  · exact sameCommand_current (phaseStep_sameCommand hp h)

/-! ## Who holds the resources -/

theorem holder_congr {s t : State} (h : t.owned = s.owned) (x : Resource) : t.holder x = s.holder x := by
  simp [State.holder, h]

/-- R26, R122: OPEN is accepted only while the host holds the resources, and takes them. -/
theorem acceptedIn_open_moves {s t : State} (hr : s.resetAsserted = false) (h : step s = .next t)
    (ha : acceptedIn s t [.openEngine]) : s.owned = false ∧ t.owned = true := by
  obtain ⟨hp, c, i, hh, hd, hc, hm, -, -⟩ := ha
  obtain ⟨rest, hh⟩ := List.head?_eq_some_iff.mp hh
  have hi : i.opcode = .openEngine := List.mem_singleton.mp hm
  have ht : t = acceptance i c.operands s.clockPin.takeCommand := by
    simpa [h] using step_accepted hr hp hh hd hc
  refine ⟨?_, by rw [ht, acceptance_owned, if_pos hi]⟩
  cases i with
  | openEngine r d => exact ((open_admitted r d _ _).mp hc).1
  | resolve | closeEngine | write | read | writeRead => cases hi

/-- R26: a step that is not the block's reset changes `owned` only by the acceptance of an OPEN and by C1. -/
theorem step_owned {s t : State} (hr : s.resetAsserted = false) (h : step s = .next t) :
    t.owned = s.owned ∨ acceptedIn s t [.openEngine] ∨ (s.pc = .c1 ∧ t.pc = .idle) := by
  rcases step_next h with ⟨hr', -⟩ | ⟨-, -, -, rfl⟩ | ⟨-, -, -, rfl⟩ | ⟨-, hp, c, rest, i, hh, hd, hc, rfl⟩ |
    ⟨-, hp, -, hs⟩
  · exact absurd (hr.symm.trans hr') Bool.false_ne_true
  · exact .inl rfl
  · exact .inl rfl
  · by_cases hi : i.opcode = .openEngine
    · refine .inr (.inl ⟨hp, c, i, by simp [hh], hd, hc, by simp [hi], ?_, ?_⟩) <;> simp
    · exact .inl (by rw [acceptance_owned, if_neg hi]; rfl)
  · by_cases hc : s.pc = .c1
    · exact .inr (.inr ⟨hc, by rw [phaseStep_c1 (s := s.clockPin) hc hs]; rfl⟩)
    · exact .inl (sameCommand_owned (s := s.clockPin) (phaseStep_sameCommand hc hs))

/-- R126: the last step of a CLOSE gives the resources up. -/
theorem step_c1_owned {s t : State} (hr : s.resetAsserted = false) (hc : s.pc = .c1) (h : step s = .next t) :
    t.owned = false := by
  have hp : s.pc ≠ .idle := by simp [hc]
  rw [step_busy hr hp] at h
  rw [phaseStep_c1 (s := s.clockPin) hc (exec_running hp h)]
  rfl

/-- Settles O17: at the acceptance of OPEN by its ownership check, at C1 by the invariant, and elsewhere `owned` stays. -/
theorem resourcesMoveOnlyAtOpenAndClose : Obligations.ResourcesMoveOnlyAtOpenAndClose := by
  intro s t x hinv hr h
  refine ⟨fun ha => ?_, fun hc => ?_, fun hne => ?_⟩
  · obtain ⟨hs, ht⟩ := acceptedIn_open_moves hr h ha
    simp [State.holder, hs, ht]
  · obtain ⟨-, hs⟩ : s.op = .closeEngine ∧ s.owned = true := by simpa [State.phaseOk, hc] using hinv.1
    simp [State.holder, hs, step_c1_owned hr hc h]
  · exact (step_owned hr h).resolve_left fun ho => hne (holder_congr ho x)

/-! ## The running command and its phase -/

/-- The phases of a command (R22): those whose micro-operations its meaning makes. -/
def runsPhase : Opcode → Phase → Bool
  | .resolve, .s1 | .openEngine, .o _ | .closeEngine, .c1 | .write, .w _ | .read, .r _
  | .writeRead, .w _ | .writeRead, .r _ => true
  | _, _ => false

/-- Away from IDLE `exec` is the micro-operation of the phase, if the phase is one of the command's. -/
theorem exec_busy {s : State} (hp : s.pc ≠ .idle) (i : Instr) :
    exec i s = if runsPhase i.opcode s.pc then phaseStep s else .fault .phaseMismatch := by
  rw [exec_eq_execAt]
  cases hpc : s.pc
  case idle => exact absurd hpc hp
  all_goals
    cases i <;>
      simp [execAt, execResolveAt, execOpenEngineAt, execCloseEngineAt, execWriteAt, execReadAt, execWriteReadAt,
        phaseStep, Instr.opcode, runsPhase, hpc]

/-- Away from IDLE `exec` answers a next state exactly when the phase is the command's and its micro-operation does. -/
theorem exec_next_iff {s t : State} {i : Instr} (hp : s.pc ≠ .idle) :
    exec i s = .next t ↔ runsPhase i.opcode s.pc = true ∧ phaseStep s = .next t := by
  rw [exec_busy hp]
  split <;> simp_all

@[simp] theorem current_opcode (s : State) : s.current.opcode = s.op := by
  unfold State.current
  cases s.op <;> rfl

/-- R22: under the invariant `pc` is a phase of the running command. -/
theorem phaseOk_runsPhase {s : State} (h : s.phaseOk) (hp : s.pc ≠ .idle) : runsPhase s.op s.pc = true := by
  cases hpc : s.pc <;> simp only [State.phaseOk, hpc] at h
  · exact absurd hpc hp
  · rw [h.1]; rfl
  · rw [h.1]; rfl
  · rw [h.1]; rfl
  · obtain ⟨-, -, ⟨ho, -⟩ | ⟨ho, -, -⟩⟩ := h <;> rw [ho] <;> rfl
  · obtain ⟨-, -, -, -, ho | ho⟩ := h <;> rw [ho] <;> rfl

/-- W6D is the only phase of a WRITE that can stop, and only outside the buffer. -/
theorem writePhase_answers {p : WritePhase} {s : State} (h : s.writeIndexOk p) : ∃ t, writePhase p s = .next t := by
  cases p
  case w6d =>
    have hb : s.wbufByte s.i = some s.wdata[s.i] := List.getElem?_eq_getElem h
    exact ⟨s.sendByte s.wdata[s.i], by simp only [writePhase, hb]⟩
  all_goals exact ⟨_, rfl⟩

/-- R6D is the only phase of a READ that can stop, and only outside the buffer. -/
theorem readPhase_answers {p : ReadPhase} {s : State} (h : s.readIndexOk p) (hm : s.m = s.rbuf.length) :
    ∃ t, readPhase p s = .next t := by
  cases p
  case r6d =>
    have hi : s.i < s.rbuf.length := hm ▸ h
    exact ⟨s.takeByte, by simp only [readPhase, if_pos hi]⟩
  all_goals exact ⟨_, rfl⟩

/-- Under the invariant every running phase answers a next state. -/
theorem phaseStep_answers {s : State} (h : s.phaseOk) (hp : s.pc ≠ .idle) : ∃ t, phaseStep s = .next t := by
  cases hpc : s.pc <;> simp only [State.phaseOk, phaseStep, hpc] at h ⊢
  · exact absurd hpc hp
  · exact ⟨_, rfl⟩
  · exact ⟨_, rfl⟩
  · exact ⟨_, rfl⟩
  · obtain ⟨-, hi, -⟩ := h
    exact writePhase_answers hi
  · obtain ⟨-, hi, -, hm, -⟩ := h
    exact readPhase_answers hi hm

/-- Under the invariant a step of a busy block is the micro-operation of its phase. -/
theorem step_eq_phaseStep {s : State} (h : s.phaseOk) (hr : s.resetAsserted = false) (hp : s.pc ≠ .idle) :
    step s = phaseStep s.clockPin := by
  rw [step_busy hr hp, exec_busy (s := s.clockPin) hp, if_pos (by simpa using phaseOk_runsPhase h hp)]

/-- Settles O54: a busy step is the phase of the running command, which answers under the invariant and keeps the
registers that name the command; an acceptance latches them. -/
theorem stepRunsTheRunningCommand : Obligations.StepRunsTheRunningCommand := by
  intro s hinv hr
  refine ⟨fun hp => ⟨step_busy hr hp, ?_⟩, fun c rest i hp hh hd hc => ?_⟩
  · obtain ⟨t, ht⟩ := phaseStep_answers (s := s.clockPin) hinv.1 hp
    exact ⟨t, (step_eq_phaseStep hinv.1 hr hp).trans ht, phaseStep_current (s := s.clockPin) ht⟩
  · exact ⟨_, step_accepted hr hp hh hd hc, acceptance_current .., acceptance_pc ..⟩

end Sys2Proof.Machine

namespace Sys2Proof.Machine

/-! ## What a read-modify-write keeps of a register -/

/-- R81-R87: the bits R27 names in a register that is read and written back; none in DATAR, STAR1 and STAR2, which are
not. -/
def namedBits : Reg → Word
  | .ctlr1 => 0x8701
  | .ctlr2 => 0x003F
  | .ckcfgr => 0xCFFF
  | .pcfr1 => 0x00400002
  | .apb1pcenr | .apb1prstr => 0x00200000
  | .apb2pcenr => 0x00000001
  | .datar | .star1 | .star2 => 0

/-- R28: `f` leaves the bits of `r` that R27 does not name. -/
def KeepsUnnamedBits (r : Reg) (f : Word → Word) : Prop := ∀ v, f v &&& ~~~namedBits r = v &&& ~~~namedBits r

/-- R12 `SetBits` of named bits. -/
theorem keepsUnnamedBits_or {r : Reg} {k : Word} (h : k &&& ~~~namedBits r = 0) :
    KeepsUnnamedBits r (fun v => v ||| k) := by
  intro v
  calc (v ||| k) &&& ~~~namedBits r
      = (v &&& ~~~namedBits r) ||| (k &&& ~~~namedBits r) := by
        ext j hj
        simp [Bool.and_or_distrib_right]
    _ = v &&& ~~~namedBits r := by rw [h]; exact BitVec.or_zero

/-- R12 `ClearBits` of named bits. -/
theorem keepsUnnamedBits_andNot {r : Reg} {k : Word} (h : k &&& ~~~namedBits r = 0) :
    KeepsUnnamedBits r (fun v => v &&& ~~~k) := by
  intro v
  ext j hj
  have hbit : (k &&& ~~~namedBits r)[j] = false := by simp [h]
  simp only [BitVec.getElem_and, BitVec.getElem_not] at hbit ⊢
  cases hk : k[j] <;> simp_all

/-- R12 `WriteField` of a named field. -/
theorem keepsUnnamedBits_writeField {r : Reg} {k : Word} (x : Word) (h : k &&& ~~~namedBits r = 0) :
    KeepsUnnamedBits r (fun v => (v &&& ~~~k) ||| (x &&& k)) := by
  have hx : (x &&& k) &&& ~~~namedBits r = 0 := by
    rw [BitVec.and_assoc, h]
    exact BitVec.and_zero
  exact fun v => (keepsUnnamedBits_or hx _).trans (keepsUnnamedBits_andNot h v)

/-- R121: each phase of OPEN changes bits that R27 names. -/
theorem keepsUnnamedBits_openValue (s : State) (p : OpenPhase) : KeepsUnnamedBits (openReg p) (openValue s p) := by
  cases p
  case o1 | o2 | o4 | o5 | o10 | o11 => exact keepsUnnamedBits_or (by decide)
  case o3 | o6 => exact keepsUnnamedBits_andNot (by decide)
  case o7 | o8 | o9 => exact keepsUnnamedBits_writeField _ (by decide)

/-- R126: C1 clears PE alone. -/
theorem keepsUnnamedBits_clearPe : KeepsUnnamedBits .ctlr1 (fun v => v &&& ~~~peMask) :=
  keepsUnnamedBits_andNot (by decide)

/-- R155, R160: W2 and R2 set START alone. -/
theorem keepsUnnamedBits_setStart : KeepsUnnamedBits .ctlr1 (fun v => v ||| startMask) :=
  keepsUnnamedBits_or (by decide)

/-- R155, R160: W8 and R7 set STOP alone. -/
theorem keepsUnnamedBits_setStop : KeepsUnnamedBits .ctlr1 (fun v => v ||| stopMask) :=
  keepsUnnamedBits_or (by decide)

/-! ## What a step writes -/

/-- What a step records: nothing in a reset and at IDLE, else what the running phase does. -/
def stepEvents (s : State) : List Event :=
  if s.resetAsserted = true ∨ s.pc = .idle then [] else phaseEvents s

theorem step_appends {s t : State} (h : step s = .next t) : t.trace = s.trace ++ stepEvents s := by
  rcases step_trace h with ⟨ht, hn⟩ | ⟨ht, hr, hp⟩
  · simp [stepEvents, hn, ht]
  · simp [stepEvents, hr, hp, ht]

/-- R12, R56: a running phase writes no register, or a byte to DATAR, or it is a read-modify-write of a register with named
bits that keeps the others. -/
theorem phaseEvents_cases (s : State) :
    (∀ r w, .wr r w ∉ phaseEvents s) ∨ (∃ b, phaseEvents s = [.wr .datar (dataWord b)]) ∨
    (∃ r f, namedBits r ≠ 0 ∧ KeepsUnnamedBits r f ∧ phaseEvents s = rmwEvents s r f) := by
  cases hp : s.pc with
  | idle | s1 => exact .inl (by simp [phaseEvents, hp])
  | o p =>
    have hr : namedBits (openReg p) ≠ 0 := by cases p <;> decide
    exact .inr (.inr ⟨_, _, hr, keepsUnnamedBits_openValue s p, by simp only [phaseEvents, hp]⟩)
  | c1 =>
    exact .inr (.inr ⟨.ctlr1, _, by decide, keepsUnnamedBits_clearPe, by simp only [phaseEvents, hp]⟩)
  | w p =>
    cases p
    case w1 | w3 | w5 | w6t | w7 => exact .inl (by simp [phaseEvents, hp, snapEvents])
    case w9 => exact .inl (by simp [phaseEvents, hp])
    case w4 => exact .inr (.inl ⟨addressByte s.a7 0#1, by simp only [phaseEvents, hp]⟩)
    case w6d =>
      cases hb : s.wbufByte s.i with
      | none => exact .inl (by simp [phaseEvents, hp, hb])
      | some b => exact .inr (.inl ⟨b, by simp [phaseEvents, hp, hb]⟩)
    case w2 =>
      exact .inr (.inr ⟨.ctlr1, _, by decide, keepsUnnamedBits_setStart, by simp only [phaseEvents, hp]⟩)
    case w8 =>
      exact .inr (.inr ⟨.ctlr1, _, by decide, keepsUnnamedBits_setStop, by simp only [phaseEvents, hp]⟩)
  | r p =>
    cases p
    case r1 | r3 | r5 | r6r => exact .inl (by simp [phaseEvents, hp, snapEvents])
    case r6d | r8 => exact .inl (by simp [phaseEvents, hp])
    case r4 => exact .inr (.inl ⟨addressByte s.a7 1#1, by simp only [phaseEvents, hp]⟩)
    case r2 =>
      exact .inr (.inr ⟨.ctlr1, _, by decide, keepsUnnamedBits_setStart, by simp only [phaseEvents, hp]⟩)
    case r7 =>
      exact .inr (.inr ⟨.ctlr1, _, by decide, keepsUnnamedBits_setStop, by simp only [phaseEvents, hp]⟩)

/-- R12, R28: the events a step adds hold no write, or are a write of a byte to DATAR, or a read-modify-write of a register
with named bits that keeps the others. -/
theorem step_writes {s t : State} {ev : List Event} (h : step s = .next t) (he : t.trace = s.trace ++ ev) :
    (∀ r w, .wr r w ∉ ev) ∨ (∃ b, ev = [.wr .datar (dataWord b)]) ∨
    (∃ r v w, namedBits r ≠ 0 ∧ w &&& ~~~namedBits r = v &&& ~~~namedBits r ∧ ev = [.rd r v, .wr r w]) := by
  obtain rfl : ev = stepEvents s := List.append_cancel_left (he.symm.trans (step_appends h))
  unfold stepEvents
  split
  · exact .inl (by simp)
  · rcases phaseEvents_cases s with hn | hb | ⟨r, f, hr, hf, hev⟩
    · exact .inl hn
    · exact .inr (.inl hb)
    · exact .inr (.inr ⟨r, _, _, hr, hf (s.answer r), hev⟩)

/-- R84: a byte zero-extended is below 256. -/
theorem dataWord_lt (b : Byte) : (dataWord b).toNat < 256 := by
  rw [dataWord, BitVec.toNat_setWidth_of_le (by decide)]
  exact b.isLt

/-- Settles O39: what a step writes is DATAR, unread, or a register with named bits, which STAR1, STAR2 and DATAR are
not. -/
theorem statusRegistersNeverWritten : Obligations.StatusRegistersNeverWritten := by
  intro s t ev h he
  rcases step_writes h he with hn | ⟨b, rfl⟩ | ⟨r, v, w, hr, -, rfl⟩
  · refine ⟨fun v => ⟨hn _ v, hn _ v⟩, fun v w hev => hn .datar w ?_⟩
    simp [hev]
  · simp
  · have hstar1 : r ≠ .star1 := fun hc => hr (by rw [hc]; rfl)
    have hstar2 : r ≠ .star2 := fun hc => hr (by rw [hc]; rfl)
    have hdatar : r ≠ .datar := fun hc => hr (by rw [hc]; rfl)
    simp [hstar1.symm, hstar2.symm, hdatar]

/-- Settles O41: the read-modify-writes keep the unnamed bits, and DATAR gets bytes only. -/
theorem opaqueBitsWrittenBack : Obligations.OpaqueBitsWrittenBack := by
  intro s t ev h he
  rcases step_writes h he with hn | ⟨b, rfl⟩ | ⟨r, v, w, hr, hk, rfl⟩
  · refine ⟨fun r v w hev => absurd ?_ (hn r w), fun w hw => absurd hw (hn .datar w)⟩
    simp [hev]
  · refine ⟨fun r v w hev => by simp at hev, fun w hw => ?_⟩
    obtain rfl : w = dataWord b := by simpa using hw
    exact dataWord_lt b
  · refine ⟨fun r' v' w' hev => ?_, fun w' hw => ?_⟩
    · simp only [List.cons.injEq, Event.rd.injEq, Event.wr.injEq, and_true] at hev
      obtain ⟨⟨rfl, rfl⟩, -, rfl⟩ := hev
      cases r <;> exact hk
    · obtain ⟨rfl, -⟩ : .datar = r ∧ w' = w := by simpa using hw
      exact absurd rfl hr

end Sys2Proof.Machine

namespace Sys2Proof.Machine

/-! ## Only the answers matter (R33)

`s.withRecord e tr` differs from `s` in what a step must not look at. Each operation is shown to take it to such a variant
of its own result, as long as the answers it reads are written as values. -/

/-- `s` with other values held for the environment's registers and another trace. -/
def State.withRecord (s : State) (e : EnvRegs) (tr : List Event) : State := { s with env := e, trace := tr }

section
variable {s : State} {v w : Word} {more : List Answer} (e : EnvRegs) (tr : List Event)

/-- An answer written as a value is read whatever the environment's registers hold. -/
theorem answer_withRecord (ha : s.answers = .value v :: more) (r : Reg) :
    (s.withRecord e tr).answer r = s.answer r := by
  rw [answer_value ha, answer_value (s := s.withRecord e tr) ha]

theorem snap1_withRecord (ha : s.answers = .value v :: more) : (s.withRecord e tr).snap1 = s.snap1 :=
  answer_withRecord e tr ha .star1

theorem snap2_withRecord (ha : s.answers = .value v :: .value w :: more) :
    (s.withRecord e tr).snap2 = s.snap2 := by
  have hs : (s.readReg .star1).answers = .value w :: more := by simp [ha]
  have hr : ((s.withRecord e tr).readReg .star1).answers = .value w :: more := by simp [State.withRecord, ha]
  exact (answer_value hr .star2).trans (answer_value hs .star2).symm

theorem phaseEvents_withRecord (ha : s.answers = .value v :: .value w :: more) :
    phaseEvents (s.withRecord e tr) = phaseEvents s := by
  have hpc : (s.withRecord e tr).pc = s.pc := rfl
  have hov : openValue (s.withRecord e tr) = openValue s := rfl
  have hwb : (s.withRecord e tr).wbufByte (s.withRecord e tr).i = s.wbufByte s.i := rfl
  simp only [phaseEvents, rmwEvents, snapEvents, hpc, hov, hwb, answer_withRecord e tr ha, snap1_withRecord e tr ha,
    snap2_withRecord e tr ha]
  rfl

theorem openPhase_withRecord (ha : s.answers = .value v :: more) (p : OpenPhase) :
    ∃ e' tr', openPhase p (s.withRecord e tr) = (openPhase p s).withRecord e' tr' := by
  cases p <;>
    simp only [openPhase, State.setBits, State.clearBits, State.writeField, modifyReg_eq, answer_latchTiming,
      answer_withRecord e tr ha] <;>
    exact ⟨_, _, rfl⟩

theorem endWrite_withRecord (ha : s.answers = .value v :: more) :
    ∃ e' tr', (s.withRecord e tr).endWrite = s.endWrite.withRecord e' tr' := by
  have hth : (s.withRecord e tr).thenRead = s.thenRead := rfl
  simp only [State.endWrite, hth, answer_withRecord e tr ha]
  split <;> exact ⟨_, _, rfl⟩

theorem takeByte_withRecord (ha : s.answers = .value v :: more) :
    ∃ e' tr', (s.withRecord e tr).takeByte = s.takeByte.withRecord e' tr' := by
  simp only [State.takeByte, answer_withRecord e tr ha]
  exact ⟨_, _, rfl⟩

theorem writePhase_withRecord (ha : s.answers = .value v :: .value w :: more) {p : WritePhase} {t : State}
    (h : writePhase p s = .next t) :
    ∃ e' tr', writePhase p (s.withRecord e tr) = .next (t.withRecord e' tr') := by
  have hwb : (s.withRecord e tr).wbufByte (s.withRecord e tr).i = s.wbufByte s.i := rfl
  cases p <;>
    simp only [writePhase, poll_goto, poll_startWriteData, State.setBits, modifyReg_goto, hwb, snap1_withRecord e tr ha,
      snap2_withRecord e tr ha, answer_withRecord e tr ha] at h ⊢
  case w6d =>
    split at h <;> cases h
    exact ⟨_, _, rfl⟩
  case w5 =>
    cases h
    split <;> exact ⟨_, _, rfl⟩
  case w9 =>
    cases h
    obtain ⟨e', tr', he⟩ := endWrite_withRecord e tr ha
    exact ⟨e', tr', congrArg _ he⟩
  all_goals
    cases h
    exact ⟨_, _, rfl⟩

theorem readPhase_withRecord (ha : s.answers = .value v :: .value w :: more) {p : ReadPhase} {t : State}
    (h : readPhase p s = .next t) :
    ∃ e' tr', readPhase p (s.withRecord e tr) = .next (t.withRecord e' tr') := by
  have hi : (s.withRecord e tr).i = s.i := rfl
  have hrb : (s.withRecord e tr).rbuf = s.rbuf := rfl
  cases p <;>
    simp only [readPhase, poll_goto, poll_startReadData, State.setBits, modifyReg_goto, hi, hrb,
      snap1_withRecord e tr ha, snap2_withRecord e tr ha, answer_withRecord e tr ha] at h ⊢
  case r6d =>
    split at h <;> cases h
    rename_i hlt
    obtain ⟨e', tr', he⟩ := takeByte_withRecord e tr ha
    exact ⟨e', tr', by rw [if_pos hlt, he]⟩
  case r5 =>
    cases h
    split <;> exact ⟨_, _, rfl⟩
  all_goals
    cases h
    exact ⟨_, _, rfl⟩

theorem phaseStep_withRecord (ha : s.answers = .value v :: .value w :: more) {t : State}
    (h : phaseStep s = .next t) :
    ∃ e' tr', phaseStep (s.withRecord e tr) = .next (t.withRecord e' tr') := by
  have hpc' : (s.withRecord e tr).pc = s.pc := rfl
  cases hpc : s.pc <;> simp only [phaseStep, hpc', hpc] at h ⊢
  case s1 =>
    cases h
    exact ⟨_, _, rfl⟩
  case o p =>
    cases h
    obtain ⟨e', tr', he⟩ := openPhase_withRecord e tr ha p
    exact ⟨e', tr', congrArg _ he⟩
  case c1 =>
    cases h
    rw [closePhase_eq, closePhase_eq, answer_withRecord e tr ha]
    exact ⟨_, _, rfl⟩
  case w p => exact writePhase_withRecord e tr ha h
  case r p => exact readPhase_withRecord e tr ha h
  case idle => cases h

theorem acceptance_withRecord (i : Instr) (o : Operands) (s : State) :
    acceptance i o (s.withRecord e tr) = (acceptance i o s).withRecord e tr := by
  cases i <;> rfl

/-- The part of R33 about the state answered: whichever kind of step it is, the variant takes the same kind, and its
result is a variant. -/
theorem step_withRecord (ha : s.answers = .value v :: .value w :: more) {t : State} (h : step s = .next t) :
    ∃ e' tr', step (s.withRecord e tr) = .next (t.withRecord e' tr') := by
  rcases step_next h with ⟨hr, rfl⟩ | ⟨hr, hp, hh, rfl⟩ | ⟨hr, hp, ⟨c, rest, hh, hc⟩, rfl⟩ |
    ⟨hr, hp, c, rest, i, hh, hd, hc, rfl⟩ | ⟨hr, hp, hx, hs⟩
  · exact ⟨e, tr, step_reset (s := s.withRecord e tr) hr⟩
  · exact ⟨e, tr, step_waits (s := s.withRecord e tr) hr hp hh⟩
  · exact ⟨e, tr, step_refused (s := s.withRecord e tr) hr hp hh hc⟩
  · exact ⟨e, tr, (step_accepted (s := s.withRecord e tr) hr hp hh hd hc).trans
      (congrArg _ (acceptance_withRecord e tr i c.operands s.clockPin.takeCommand))⟩
  · obtain ⟨e', tr', he⟩ := phaseStep_withRecord (s := s.clockPin) e tr ha hs
    have hruns : runsPhase s.current.opcode s.pc = true := ((exec_next_iff (s := s.clockPin) hp).mp hx).1
    exact ⟨e', tr', (step_busy (s := s.withRecord e tr) hr hp).trans
      ((exec_next_iff (s := (s.withRecord e tr).clockPin) hp).mpr ⟨hruns, he⟩)⟩

/-- The part of R33 about the events: they are the same ones. -/
theorem stepEvents_withRecord (ha : s.answers = .value v :: .value w :: more) :
    stepEvents (s.withRecord e tr) = stepEvents s := by
  simp only [stepEvents, phaseEvents_withRecord e tr ha]
  rfl

end

/-- Settles O35: a step on the variant answers a variant of the state, and adds the same events to its own trace. -/
theorem onlyTheAnswersMatter : Obligations.OnlyTheAnswersMatter := by
  refine ⟨fun s r v more hf => (answer_value rfl r).trans hf, fun s t v w more e tr ha h => ?_⟩
  obtain ⟨e', tr', hw⟩ := step_withRecord e tr ha h
  have htr : tr' = tr ++ stepEvents s := by
    rw [← stepEvents_withRecord e tr ha]
    exact step_appends hw
  exact ⟨e', stepEvents s, step_appends h, htr ▸ hw⟩

end Sys2Proof.Machine

namespace Sys2Proof.Machine

/-! ## What one step records (R56) -/

/-- R56: the forms a micro-operation's events have. -/
def IsMicroOperation (ev : List Event) : Prop :=
  ev = [] ∨ (∃ v, ev = [.wr .datar v]) ∨ (∃ v, ev = [.rd .star1 v]) ∨
    (∃ r v w, ev = [.rd r v, .wr r w]) ∨ (∃ v w, ev = [.rd .star1 v, .rd .star2 w]) ∨
    (∃ v k, ev = [.rd .datar v, .hb k (v.setWidth 8)])

theorem isMicroOperation_nil : IsMicroOperation [] := .inl rfl

theorem isMicroOperation_datarWrite (v : Word) : IsMicroOperation [.wr .datar v] := .inr (.inl ⟨v, rfl⟩)

theorem isMicroOperation_check (v : Word) : IsMicroOperation [.rd .star1 v] := .inr (.inr (.inl ⟨v, rfl⟩))

theorem isMicroOperation_rmwEvents (s : State) (r : Reg) (f : Word → Word) : IsMicroOperation (rmwEvents s r f) :=
  .inr (.inr (.inr (.inl ⟨r, _, _, rfl⟩)))

theorem isMicroOperation_snapEvents (s : State) : IsMicroOperation (snapEvents s) :=
  .inr (.inr (.inr (.inr (.inl ⟨_, _, rfl⟩))))

theorem isMicroOperation_takeByte (v : Word) (k : Nat) : IsMicroOperation [.rd .datar v, .hb k (dataByte v)] :=
  .inr (.inr (.inr (.inr (.inr ⟨v, k, rfl⟩))))

/-- Every phase makes one micro-operation, or none where the data is used up. -/
theorem isMicroOperation_phaseEvents (s : State) : IsMicroOperation (phaseEvents s) := by
  cases hp : s.pc with
  | idle | s1 =>
    simp only [phaseEvents, hp]
    exact isMicroOperation_nil
  | o _ | c1 =>
    simp only [phaseEvents, hp]
    exact isMicroOperation_rmwEvents ..
  | w p =>
    cases p <;> simp only [phaseEvents, hp]
    case w1 | w3 | w5 | w6t | w7 => exact isMicroOperation_snapEvents s
    case w2 | w8 => exact isMicroOperation_rmwEvents ..
    case w4 => exact isMicroOperation_datarWrite _
    case w6d =>
      cases s.wbufByte s.i with
      | none => exact isMicroOperation_nil
      | some b => exact isMicroOperation_datarWrite _
    case w9 => exact isMicroOperation_check _
  | r p =>
    cases p <;> simp only [phaseEvents, hp]
    case r1 | r3 | r5 | r6r => exact isMicroOperation_snapEvents s
    case r2 | r7 => exact isMicroOperation_rmwEvents ..
    case r4 => exact isMicroOperation_datarWrite _
    case r6d => exact isMicroOperation_takeByte ..
    case r8 => exact isMicroOperation_check _

/-- Settles O37: a step records nothing in a reset and at IDLE, and the micro-operation of its phase elsewhere. -/
theorem oneMicroOperationPerStep : Obligations.OneMicroOperationPerStep := by
  intro s t h
  refine ⟨stepEvents s, step_appends h, ?_⟩
  change IsMicroOperation (stepEvents s)
  unfold stepEvents
  split
  · exact isMicroOperation_nil
  · exact isMicroOperation_phaseEvents s

end Sys2Proof.Machine

namespace Sys2Proof.Machine

/-! ## What a running phase does to RBUF (R52) -/

theorem openPhase_rbuf (p : OpenPhase) (s : State) : (openPhase p s).rbuf = s.rbuf := by
  cases p <;> rfl

theorem endWrite_rbuf (s : State) : s.endWrite.rbuf = s.rbuf := by
  unfold State.endWrite
  split <;> rfl

/-- R155: no phase of a WRITE touches the host's read buffer. -/
theorem writePhase_rbuf {p : WritePhase} {s t : State} (h : writePhase p s = .next t) : t.rbuf = s.rbuf := by
  cases p <;> simp only [writePhase, poll_goto, poll_startWriteData] at h
  case w6d =>
    split at h <;> cases h
    rfl
  case w5 =>
    cases h
    split <;> rfl
  case w9 =>
    cases h
    exact endWrite_rbuf s
  all_goals
    cases h
    rfl

/-- R160: the only phase of a READ that touches RBUF is R6D. -/
theorem readPhase_rbuf {p : ReadPhase} {s t : State} (hp : p ≠ .r6d) (h : readPhase p s = .next t) :
    t.rbuf = s.rbuf := by
  cases p <;> simp only [readPhase, poll_goto, poll_startReadData] at h
  case r6d => exact absurd rfl hp
  case r5 =>
    cases h
    split <;> rfl
  all_goals
    cases h
    rfl

/-- R160: what R6D does, with the check that its slot exists. -/
theorem readPhase_r6d {s t : State} (h : readPhase .r6d s = .next t) : s.i < s.rbuf.length ∧ t = s.takeByte := by
  simp only [readPhase] at h
  split at h <;> cases h
  exact ⟨‹_›, rfl⟩

/-- R52: a running phase leaves RBUF as it is, or it is R6D and puts what DATAR answers into slot `i`. -/
theorem phaseStep_rbuf {s t : State} (h : phaseStep s = .next t) :
    t.rbuf = s.rbuf ∨ (s.pc = .r .r6d ∧ s.i < s.rbuf.length ∧ t = s.takeByte) := by
  cases hp : s.pc <;> simp only [phaseStep, hp] at h
  case idle => cases h
  case s1 | c1 =>
    cases h
    exact .inl rfl
  case o p =>
    cases h
    exact .inl (openPhase_rbuf p s)
  case w p => exact .inl (writePhase_rbuf h)
  case r p =>
    by_cases hd : p = .r6d
    · subst hd
      exact .inr ⟨rfl, readPhase_r6d h⟩
    · exact .inl (readPhase_rbuf hd h)

/-- R52: an acceptance leaves RBUF as it is, or it is that of a READ or WRITE_READ and takes the host's buffer. -/
theorem acceptance_rbuf (i : Instr) (o : Operands) (s : State) :
    (acceptance i o s).rbuf = s.rbuf ∨
      ((i.opcode = .read ∨ i.opcode = .writeRead) ∧ (acceptance i o s).rbuf = o.rbuf) := by
  cases i with
  | resolve | openEngine | closeEngine | write => exact .inl rfl
  | read => exact .inr ⟨.inl rfl, rfl⟩
  | writeRead => exact .inr ⟨.inr rfl, rfl⟩

/-- Settles O44: of the kinds of step only the acceptance of a READ or WRITE_READ and R6D change RBUF. -/
theorem readBufferWrittenSlotBySlot : Obligations.ReadBufferWrittenSlotBySlot := by
  intro s t hr h hne
  rcases step_next h with ⟨hr', -⟩ | ⟨-, -, -, rfl⟩ | ⟨-, -, -, rfl⟩ | ⟨-, hp, c, rest, i, hh, -, -, rfl⟩ |
    ⟨-, -, -, hs⟩
  · exact absurd (hr.symm.trans hr') Bool.false_ne_true
  · exact absurd rfl hne
  · exact absurd rfl hne
  · obtain ⟨hi, hb⟩ := (acceptance_rbuf i c.operands s.clockPin.takeCommand).resolve_left hne
    refine .inl ⟨hp, ?_, c, by simp [hh], hb⟩
    rw [acceptance_op, acceptance_pc]
    rcases hi with hi | hi <;> simp [hi, firstPhase]
  · obtain ⟨hp, hlt, rfl⟩ := (phaseStep_rbuf (s := s.clockPin) hs).resolve_left hne
    have hb : s.clockPin.takeByte.rbuf = s.rbuf.set s.i (dataByte (s.answer .datar)) := rfl
    refine .inr ⟨hp, by simp [hb], ?_, fun k hk => ?_⟩
    · rw [hb]
      exact List.getElem?_set_self hlt
    · rw [hb]
      exact List.getElem?_set_ne hk.symm

end Sys2Proof.Machine

namespace Sys2Proof.Machine

/-! ## What a step keeps of the recorded data (R24, R57) -/

theorem namedBits_within_width (r : Reg) : namedBits r &&& widthMask r = namedBits r := by
  cases r <;> decide

/-- R28, R57: what changes only bits that R27 names stays within the register's width. -/
theorem fits_of_keepsUnnamedBits {r : Reg} {f : Word → Word} {v : Word} (hf : KeepsUnnamedBits r f)
    (hv : fits r v) : fits r (f v) := by
  unfold fits at *
  ext j hj
  have hnamed := congrArg (·[j]) (namedBits_within_width r)
  have hbit := congrArg (·[j]) (hf v)
  have hvbit := congrArg (·[j]) hv
  simp only [BitVec.getElem_and, BitVec.getElem_not] at hnamed hbit hvbit ⊢
  cases hw : (widthMask r)[j] <;> simp_all

/-- R28: a state whose data differs from that of `s` by a read-modify-write of named bits, a posted result apart. -/
theorem dataOk_rmw {s t : State} {r : Reg} {f : Word → Word} (h : s.dataOk) (hf : KeepsUnnamedBits r f)
    (he : t.env = (s.modifyReg r f).env) (ht : t.trace = (s.modifyReg r f).trace)
    (hr : t.res = s.res ∨ t.res.done = true) : t.dataOk := by
  have hm : (s.modifyReg r f).dataOk := dataOk_modifyReg h (fits_of_keepsUnnamedBits hf (fits_answer s r))
  exact hr.elim (fun hr => dataOk_congr hm he ht hr) (dataOk_posted hm he ht)

/-- R140: a poll iteration reads two registers. -/
theorem dataOk_afterPoll {s : State} (h : s.dataOk) (p : Phase) (k : Nat) : (s.afterPoll p k).dataOk := by
  refine dataOk_congr (dataOk_afterSnap h) ?_ ?_ rfl <;> rw [afterSnap_eq] <;> rfl

theorem dataOk_openPhase {s : State} (h : s.dataOk) (p : OpenPhase) : (openPhase p s).dataOk := by
  refine dataOk_rmw (r := openReg p) (f := openValue s p) h (keepsUnnamedBits_openValue s p) ?_ ?_ ?_
  · cases p <;> rfl
  · cases p <;> rfl
  · cases p
    case o11 => exact .inr rfl
    all_goals exact .inl rfl

theorem dataOk_closePhase {s : State} (h : s.dataOk) : (closePhase s).dataOk :=
  dataOk_rmw h keepsUnnamedBits_clearPe rfl rfl (.inr rfl)

theorem dataOk_endWrite {s : State} (h : s.dataOk) : s.endWrite.dataOk := by
  have hc : s.afterCheck.dataOk := dataOk_readReg h .star1
  unfold State.endWrite
  split
  · exact dataOk_congr hc rfl rfl rfl
  · exact dataOk_posted hc rfl rfl rfl

theorem dataOk_writePhase {p : WritePhase} {s t : State} (h : s.dataOk) (hs : writePhase p s = .next t) :
    t.dataOk := by
  cases p <;> simp only [writePhase, poll_goto, poll_startWriteData] at hs
  case w6d =>
    split at hs <;> cases hs
    exact dataOk_congr (dataOk_writeReg h (fits_dataWord _)) rfl rfl rfl
  all_goals cases hs
  case w1 | w3 | w6t | w7 => exact dataOk_afterPoll h ..
  case w5 => split <;> exact dataOk_afterPoll h ..
  case w2 => exact dataOk_rmw h keepsUnnamedBits_setStart rfl rfl (.inl rfl)
  case w4 => exact dataOk_congr (dataOk_writeReg h (fits_dataWord _)) rfl rfl rfl
  case w8 => exact dataOk_rmw h keepsUnnamedBits_setStop rfl rfl (.inl rfl)
  case w9 => exact dataOk_endWrite h

theorem dataOk_takeByte {s : State} (h : s.dataOk) : s.takeByte.dataOk := by
  obtain ⟨henv, htrace, hres⟩ := dataOk_readReg h .datar
  refine ⟨henv, fun e he => ?_, hres⟩
  obtain he | rfl : e ∈ (s.readReg .datar).trace ∨ e = .hb s.i (dataByte (s.answer .datar)) := by
    simpa [State.takeByte, or_assoc] using he
  · exact htrace e he
  · trivial

theorem dataOk_readPhase {p : ReadPhase} {s t : State} (h : s.dataOk) (hs : readPhase p s = .next t) :
    t.dataOk := by
  cases p <;> simp only [readPhase, poll_goto, poll_startReadData] at hs
  case r6d =>
    split at hs <;> cases hs
    exact dataOk_takeByte h
  all_goals cases hs
  case r1 | r3 | r6r => exact dataOk_afterPoll h ..
  case r5 => split <;> exact dataOk_afterPoll h ..
  case r2 => exact dataOk_rmw h keepsUnnamedBits_setStart rfl rfl (.inl rfl)
  case r4 => exact dataOk_congr (dataOk_writeReg h (fits_dataWord _)) rfl rfl rfl
  case r7 => exact dataOk_rmw h keepsUnnamedBits_setStop rfl rfl (.inl rfl)
  case r8 => exact dataOk_posted (dataOk_readReg h .star1) rfl rfl rfl

theorem dataOk_phaseStep {s t : State} (h : s.dataOk) (hs : phaseStep s = .next t) : t.dataOk := by
  cases hp : s.pc <;> simp only [phaseStep, hp] at hs
  case idle => cases hs
  case s1 =>
    cases hs
    exact dataOk_posted h rfl rfl rfl
  case o p =>
    cases hs
    exact dataOk_openPhase h p
  case c1 =>
    cases hs
    exact dataOk_closePhase h
  case w p => exact dataOk_writePhase h hs
  case r p => exact dataOk_readPhase h hs

theorem dataOk_acceptance {s : State} (h : s.dataOk) (i : Instr) (o : Operands) : (acceptance i o s).dataOk := by
  cases i <;> exact dataOk_congr h rfl rfl rfl

/-! ## What a step keeps of the registers of the running command (R21, R22) -/

theorem phaseOk_of_idle {s : State} (h : s.pc = .idle) : s.phaseOk := by
  simp [State.phaseOk, h]

/-- R155, R170: what the phases of a WRITE find latched, but for the index. -/
def State.writeLatched (s : State) : Prop :=
  s.owned = true ∧ ((s.op = .write ∧ s.thenRead = false) ∨
    (s.op = .writeRead ∧ s.thenRead = true ∧ s.m = s.rbuf.length))

/-- R160, R170: what the phases of a READ find latched, but for the index. -/
def State.readLatched (s : State) : Prop :=
  s.owned = true ∧ s.thenRead = false ∧ s.m = s.rbuf.length ∧ (s.op = .read ∨ s.op = .writeRead)

theorem phaseOk_w {s : State} {p : WritePhase} (hp : s.pc = .w p) :
    s.phaseOk ↔ s.writeLatched ∧ s.writeIndexOk p := by
  simp only [State.phaseOk, State.writeLatched, hp]
  tauto

theorem phaseOk_r {s : State} {p : ReadPhase} (hp : s.pc = .r p) :
    s.phaseOk ↔ s.readLatched ∧ s.readIndexOk p := by
  simp only [State.phaseOk, State.readLatched, hp]
  tauto

/-- R106, R122, R126, R155, R160, R170: an accepted command stands at its first phase with its operands latched. -/
theorem phaseOk_acceptance {i : Instr} {o : Operands} {s : State} (h : refusalOf i s.owned o = none) :
    (acceptance i o s).phaseOk := by
  cases i with
  | resolve d => exact ⟨rfl, (resolve_admitted d _ o).mp h⟩
  | openEngine r d => exact ⟨rfl, rfl, ((open_admitted r d _ o).mp h).2⟩
  | closeEngine => exact ⟨rfl, (owned_admitted (by decide) (by decide) _ o).mp h⟩
  | write a =>
    have ho : s.owned = true := (owned_admitted (by simp [Instr.opcode]) (by simp [Instr.opcode]) _ o).mp h
    exact ⟨ho, trivial, .inl ⟨rfl, rfl⟩⟩
  | read a =>
    have ho : s.owned = true := (owned_admitted (by simp [Instr.opcode]) (by simp [Instr.opcode]) _ o).mp h
    exact ⟨ho, trivial, rfl, rfl, .inl rfl⟩
  | writeRead a =>
    have ho : s.owned = true := (owned_admitted (by simp [Instr.opcode]) (by simp [Instr.opcode]) _ o).mp h
    exact ⟨ho, trivial, .inr ⟨rfl, rfl, rfl⟩⟩

/-- R121: a phase of OPEN moves to another one or, the last, to IDLE. -/
theorem phaseOk_openPhase {s : State} {p : OpenPhase} (hp : s.pc = .o p) (h : s.phaseOk) :
    (openPhase p s).phaseOk := by
  have hl : s.op = .openEngine ∧ s.owned = true ∧ s.speedInRange := by simpa only [State.phaseOk, hp] using h
  cases p
  case o11 => exact phaseOk_of_idle rfl
  all_goals exact hl

/-- R155, R170: after W9 the read half starts, with what its phases need, or the command is over. -/
theorem phaseOk_endWrite {s : State} (h : s.writeLatched) : s.endWrite.phaseOk := by
  obtain ⟨ho, hc⟩ := h
  unfold State.endWrite
  split
  · rename_i hth
    obtain ⟨-, hf⟩ | ⟨hop, -, hm⟩ := hc
    · exact absurd (hf.symm.trans hth.1) Bool.false_ne_true
    · exact ⟨ho, trivial, rfl, hm, .inr hop⟩
  · exact phaseOk_of_idle rfl

/-- R140: an iteration of a poll of a WRITE stays at its phase or moves to one that admits the index. -/
theorem phaseOk_writePoll {s : State} {p q : WritePhase} (b : Bool) (hl : s.writeLatched) (hp : s.writeIndexOk p)
    (hq : s.writeIndexOk q) : (s.afterPoll (if b then .w q else .w p) s.i).phaseOk := by
  split
  · exact (phaseOk_w rfl).mpr ⟨hl, hq⟩
  · exact (phaseOk_w rfl).mpr ⟨hl, hp⟩

/-- R155: where a WRITE stands before a data byte, or after the last. -/
theorem phaseOk_beforeWriteByte {t : State} (hl : t.writeLatched) (hi : t.i ≤ t.wdata.length)
    (hp : t.pc = if t.i < t.wdata.length then .w .w6t else .w .w7) : t.phaseOk := by
  split at hp
  · exact (phaseOk_w hp).mpr ⟨hl, ‹_›⟩
  · have hn : t.i = t.wdata.length := by omega
    exact (phaseOk_w hp).mpr ⟨hl, hn⟩

/-- R155: a phase of a WRITE leaves the latched registers and an index that its next phase admits. -/
theorem phaseOk_writePhase {p : WritePhase} {s t : State} (hp : s.pc = .w p) (h : s.phaseOk)
    (hs : writePhase p s = .next t) : t.phaseOk := by
  obtain ⟨hl, hi⟩ := (phaseOk_w hp).mp h
  cases p <;> simp only [writePhase, poll_goto, poll_startWriteData, hp] at hs
  case w6d =>
    split at hs <;> cases hs
    exact phaseOk_beforeWriteByte hl (Nat.succ_le_of_lt hi) rfl
  all_goals cases hs
  case w1 | w3 | w6t | w7 => exact phaseOk_writePoll _ hl hi hi
  case w2 | w4 | w8 =>
    rw [phaseOk_w rfl]
    exact ⟨hl, hi⟩
  case w5 =>
    split
    · exact phaseOk_beforeWriteByte hl (Nat.zero_le _) rfl
    · exact (phaseOk_w (p := .w5) rfl).mpr ⟨hl, hi⟩
  case w9 => exact phaseOk_endWrite hl

/-- R140: as `phaseOk_writePoll`, for a READ. -/
theorem phaseOk_readPoll {s : State} {p q : ReadPhase} (b : Bool) (hl : s.readLatched) (hp : s.readIndexOk p)
    (hq : s.readIndexOk q) : (s.afterPoll (if b then .r q else .r p) s.i).phaseOk := by
  split
  · exact (phaseOk_r rfl).mpr ⟨hl, hq⟩
  · exact (phaseOk_r rfl).mpr ⟨hl, hp⟩

/-- R160: where a READ stands before a data byte, or after the last. -/
theorem phaseOk_beforeReadByte {t : State} (hl : t.readLatched) (hi : t.i ≤ t.m)
    (hp : t.pc = if t.i < t.m then .r .r6r else .r .r7) : t.phaseOk := by
  split at hp
  · exact (phaseOk_r hp).mpr ⟨hl, ‹_›⟩
  · have hn : t.i = t.m := by omega
    exact (phaseOk_r hp).mpr ⟨hl, hn⟩

/-- R160: R6D keeps the length of RBUF. -/
theorem readLatched_takeByte {s : State} (h : s.readLatched) : s.takeByte.readLatched := by
  obtain ⟨ho, hth, hm, hop⟩ := h
  exact ⟨ho, hth, by simpa [State.takeByte] using hm, hop⟩

/-- R160: a phase of a READ leaves the latched registers and an index that its next phase admits. -/
theorem phaseOk_readPhase {p : ReadPhase} {s t : State} (hp : s.pc = .r p) (h : s.phaseOk)
    (hs : readPhase p s = .next t) : t.phaseOk := by
  obtain ⟨hl, hi⟩ := (phaseOk_r hp).mp h
  cases p <;> simp only [readPhase, poll_goto, poll_startReadData, hp] at hs
  case r6d =>
    split at hs <;> cases hs
    exact phaseOk_beforeReadByte (readLatched_takeByte hl) (Nat.succ_le_of_lt hi) rfl
  all_goals cases hs
  case r1 | r3 | r6r => exact phaseOk_readPoll _ hl hi hi
  case r2 | r4 | r7 =>
    rw [phaseOk_r rfl]
    exact ⟨hl, hi⟩
  case r5 =>
    split
    · exact phaseOk_beforeReadByte hl (Nat.zero_le _) rfl
    · exact (phaseOk_r (p := .r5) rfl).mpr ⟨hl, hi⟩
  case r8 => exact phaseOk_of_idle rfl

theorem phaseOk_phaseStep {s t : State} (h : s.phaseOk) (hs : phaseStep s = .next t) : t.phaseOk := by
  cases hp : s.pc <;> simp only [phaseStep, hp] at hs
  case idle => cases hs
  case s1 | c1 =>
    cases hs
    exact phaseOk_of_idle rfl
  case o p =>
    cases hs
    exact phaseOk_openPhase hp h
  case w p => exact phaseOk_writePhase hp h hs
  case r p => exact phaseOk_readPhase hp h hs

/-- Settles O57: a step that is not a phase leaves the block at IDLE or at the first phase of an accepted command and
records nothing; a phase keeps both parts of the invariant. -/
theorem stepKeepsTheInvariant : Obligations.StepKeepsTheInvariant := by
  intro s t ⟨hphase, hdata⟩ h
  rcases step_next h with ⟨-, rfl⟩ | ⟨-, hp, -, rfl⟩ | ⟨-, hp, -, rfl⟩ | ⟨-, -, c, rest, i, -, -, hc, rfl⟩ |
    ⟨-, -, -, hs⟩
  · obtain ⟨henv, htrace, -⟩ := hdata
    exact ⟨phaseOk_of_idle rfl, henv, htrace, fun _ => rfl⟩
  · exact ⟨phaseOk_of_idle hp, dataOk_congr hdata rfl rfl rfl⟩
  · exact ⟨phaseOk_of_idle hp, dataOk_congr hdata rfl rfl rfl⟩
  · exact ⟨phaseOk_acceptance hc, dataOk_acceptance (s := s.clockPin.takeCommand) hdata i c.operands⟩
  · exact ⟨phaseOk_phaseStep (s := s.clockPin) hphase hs, dataOk_phaseStep (s := s.clockPin) hdata hs⟩

end Sys2Proof.Machine

namespace Sys2Proof.Machine

/-! ## Runs of a transaction over answers written out

A transaction is a sequence of phases, each with its own part of the script. `s.Covers x k a ev y` says of one part that
it leads from one place of the transaction to the next; the parts are joined by `covers_trans`. -/

/-- Where a transaction stands: its phase, its index and the contents of RBUF. -/
structure Place where
  pc   : Phase
  i    : Nat
  rbuf : List Byte

/-- `s` standing at `x`, with these registers held, coming answers, reads and trace. -/
def State.standAt (s : State) (x : Place) (e : EnvRegs) (a : List Answer) (n : Nat) (tr : List Event) : State :=
  s.during e a n tr x.i x.pc x.rbuf

/-- Over the answers `a`, `k` steps lead the transaction of `s` from `x` to `y` and record `ev`. -/
def State.Covers (s : State) (x : Place) (k : Nat) (a : List Answer) (ev : List Event) (y : Place) : Prop :=
  ∀ (e : EnvRegs) (n : Nat) (tr : List Event) (more : List Answer), ∃ e',
    runFor k (s.standAt x e (a ++ more) n tr) = .next (s.standAt y e' more (n + a.length) (tr ++ ev))

section
variable {s : State} {x y z : Place} {k k' i j : Nat} {a a' : List Answer} {ev ev' : List Event} {p q : Phase}
  {b : List Byte}

theorem covers_refl : s.Covers x 0 [] [] x := fun e n tr more => ⟨e, by simp⟩

theorem covers_trans (h : s.Covers x k a ev y) (h' : s.Covers y k' a' ev' z) :
    s.Covers x (k + k') (a ++ a') (ev ++ ev') z := by
  intro e n tr more
  obtain ⟨e₁, h⟩ := h e n tr (a' ++ more)
  obtain ⟨e₂, h'⟩ := h' e₁ (n + a.length) (tr ++ ev) more
  refine ⟨e₂, ?_⟩
  rw [List.append_assoc, runFor_add h, h', List.length_append, Nat.add_assoc, List.append_assoc]

/-- One step is a part of its own. -/
theorem covers_step
    (h : ∀ e n tr more, ∃ e',
      step (s.standAt x e (a ++ more) n tr) = .next (s.standAt y e' more (n + a.length) (tr ++ ev))) :
    s.Covers x 1 a ev y := by
  intro e n tr more
  obtain ⟨e', h⟩ := h e n tr more
  exact ⟨e', runFor_succ_of h⟩

/-- R140: a poll that exits, of the form `poll_exits` asks for. -/
theorem covers_poll {P : Word → Word → Bool} {c : PollScript} (hc : c.exits P)
    (hstep : ∀ e a n tr, step (s.during e a n tr i p b) =
      .next (if P (s.during e a n tr i p b).snap1 (s.during e a n tr i p b).snap2
        then (s.during e a n tr i p b).afterPoll q j else (s.during e a n tr i p b).afterPoll p i)) :
    s.Covers ⟨p, i, b⟩ c.steps c.answers c.events ⟨q, j, b⟩ := by
  obtain ⟨hfails, hpass⟩ := hc
  exact fun e n tr more => poll_exits s P p q j i b c.pass more hpass hstep c.fails e n tr hfails

/-- R12: a read-modify-write that reads `v`. -/
theorem covers_modifyReg {r : Reg} {f : Word → Word} (v : BitVec 16)
    (hstep : ∀ e a n tr, step (s.during e a n tr i p b) = .next (((s.during e a n tr i p b).modifyReg r f).goto q)) :
    s.Covers ⟨p, i, b⟩ 1 [half v] [.rd r (v.setWidth 32), .wr r (f (v.setWidth 32))] ⟨q, i, b⟩ := by
  refine covers_step fun e n tr more => ⟨e.set r (f (v.setWidth 32)), ?_⟩
  have ha : (s.during e (half v :: more) n tr i p b).answer r = v.setWidth 32 := answer_half rfl r
  exact (hstep e (half v :: more) n tr).trans (by rw [modifyReg_goto, during_afterRmw, ha]; rfl)

end

/-! ### The parts of a WRITE (R155) -/

/-- R155, R170, R172: what W9 does with the code `c` of its error check. -/
def State.leaveCheck (s : State) (c : ResultCode) : State :=
  if s.thenRead = true ∧ c = .ok then { s with thenRead := false, pc := .r .r1 } else s.post c

theorem endWrite_eq_leaveCheck (s : State) : s.endWrite = s.afterCheck.leaveCheck (classify (s.answer .star1)) := rfl

/-- R172: a code other than OK ends a WRITE_READ at the check of its write half. -/
theorem leaveCheck_error {s : State} {c : ResultCode} (h : c ≠ .ok) : s.leaveCheck c = s.post c :=
  if_neg fun hc => h hc.2

/-- A read whose answer is written out. -/
theorem readReg_during_half (s : State) (e : EnvRegs) (v : BitVec 16) (more : List Answer) (n : Nat) (tr : List Event)
    (k : Nat) (p : Phase) (b : List Byte) (r : Reg) :
    (s.during e (half v :: more) n tr k p b).readReg r =
      s.during (e.set r (v.setWidth 32)) more (n + 1) (tr ++ [.rd r (v.setWidth 32)]) k p b := by
  have ha : (s.during e (half v :: more) n tr k p b).answer r = v.setWidth 32 := answer_half rfl r
  rw [State.readReg, ha]
  rfl

section
variable {s : State} (hr : s.resetPin = []) (ho : s.op = .write ∨ s.op = .writeRead) (b : List Byte)

/-- What the poll before a data byte and the byte's write record. -/
def byteEvents (d : PollScript × Byte) : List Event := d.1.events ++ [.wr .datar (d.2.setWidth 32)]

/-- Where a WRITE stands before data byte `k`, or after the last. -/
def State.beforeWriteByte (s : State) (k : Nat) (b : List Byte) : Place :=
  ⟨if k < s.wdata.length then .w .w6t else .w .w7, k, b⟩

include hr ho

/-- A step in a phase of the transaction. -/
theorem step_during_write (p : WritePhase) (e : EnvRegs) (a : List Answer) (n : Nat) (tr : List Event) (i : Nat) :
    step (s.during e a n tr i (.w p) b) = writePhase p (s.during e a n tr i (.w p) b) :=
  step_writePhase (s := s.during e a n tr i (.w p) b) hr rfl ho

/-- The polls that move on by `pc` alone. -/
theorem covers_writePoll {p : WritePhase} {q : Phase} {P : Word → Word → Bool} {c : PollScript} (hc : c.exits P)
    (i : Nat) (hw : ∀ u : State, writePhase p u = u.poll P (fun t => t.goto q)) :
    s.Covers ⟨.w p, i, b⟩ c.steps c.answers c.events ⟨q, i, b⟩ :=
  covers_poll hc fun e a n tr => write_poll_step s hr ho hw e a n tr i b

/-- W5 moves on to the data. -/
theorem covers_w5 {c : PollScript} (hc : c.exits (pMtms params)) (i : Nat) :
    s.Covers ⟨.w .w5, i, b⟩ c.steps c.answers c.events (s.beforeWriteByte 0 b) := by
  refine covers_poll hc fun e a n tr => ?_
  rw [step_during_write hr ho]
  exact poll_startWriteData ..

/-- W2 and W8. -/
theorem covers_writeSetBits {p : WritePhase} {q : Phase} {m : Word} (v : BitVec 16) (i : Nat)
    (hw : ∀ u : State, writePhase p u = .next ((u.setBits .ctlr1 m).goto q)) :
    s.Covers ⟨.w p, i, b⟩ 1 [half v] [.rd .ctlr1 (v.setWidth 32), .wr .ctlr1 (v.setWidth 32 ||| m)] ⟨q, i, b⟩ :=
  covers_modifyReg (f := fun w => w ||| m) v fun _ _ _ _ => (step_during_write hr ho ..).trans (hw _)

theorem covers_w4 (i : Nat) :
    s.Covers ⟨.w .w4, i, b⟩ 1 [] [.wr .datar ((s.a7 ++ 0#1).setWidth 32)] ⟨.w .w5, i, b⟩ :=
  covers_step fun _ _ _ _ => ⟨_, step_during_write hr ho ..⟩

theorem covers_w6d {k : Nat} (hk : k < s.wdata.length) :
    s.Covers ⟨.w .w6d, k, b⟩ 1 [] [.wr .datar (s.wdata[k].setWidth 32)] (s.beforeWriteByte (k + 1) b) := by
  refine covers_step fun e n tr more => ⟨e.set .datar (s.wdata[k].setWidth 32), ?_⟩
  have hb : (s.during e more n tr k (.w .w6d) b).wbufByte k = some s.wdata[k] := List.getElem?_eq_getElem hk
  refine (step_during_write hr ho ..).trans ?_
  simp only [writePhase, during_i, List.nil_append, hb]
  rfl

/-- The data bytes from `k` on, each after its poll. -/
theorem covers_writeBytes (ds : List PollScript) (hds : ∀ d ∈ ds, d.exits (pTxe params)) (k : Nat)
    (hk : k + ds.length = s.wdata.length) :
    s.Covers (s.beforeWriteByte k b) ((ds.map PollScript.steps).sum + ds.length) (ds.flatMap PollScript.answers)
      ((ds.zip (s.wdata.drop k)).flatMap byteEvents) ⟨.w .w7, s.wdata.length, b⟩ := by
  induction ds generalizing k with
  | nil =>
    obtain rfl : k = s.wdata.length := hk
    have hplace : s.beforeWriteByte s.wdata.length b = ⟨.w .w7, s.wdata.length, b⟩ := by
      simp [State.beforeWriteByte]
    rw [hplace]
    exact covers_refl
  | cons d ds ih =>
    rw [List.length_cons] at hk
    have hlt : k < s.wdata.length := by omega
    have hplace : s.beforeWriteByte k b = ⟨.w .w6t, k, b⟩ := by simp [State.beforeWriteByte, hlt]
    have hpoll : s.Covers ⟨.w .w6t, k, b⟩ d.steps d.answers d.events ⟨.w .w6d, k, b⟩ :=
      covers_writePoll hr ho b (hds d (by simp)) k fun _ => rfl
    have hrest := ih (fun c hc => hds c (by simp [hc])) (k + 1) (by omega)
    have hall := covers_trans (covers_trans hpoll (covers_w6d hr ho b hlt)) hrest
    have hevents : ((d :: ds).zip (s.wdata.drop k)).flatMap byteEvents =
        d.events ++ [.wr .datar (s.wdata[k].setWidth 32)] ++ (ds.zip (s.wdata.drop (k + 1))).flatMap byteEvents := by
      rw [List.drop_eq_getElem_cons hlt, List.zip_cons_cons, List.flatMap_cons]
      rfl
    have hsteps : d.steps + 1 + ((ds.map PollScript.steps).sum + ds.length) =
        ((d :: ds).map PollScript.steps).sum + (d :: ds).length := by
      simp only [List.map_cons, List.sum_cons, List.length_cons]
      omega
    rw [hplace, ← hsteps, hevents]
    simpa only [List.append_nil, List.flatMap_cons] using hall

/-- R155: the polls, writes and bytes of a WRITE up to its error check, over a script whose polls exit. -/
theorem write_covers_check {x : WriteScript} (hx : x.exits s.wdata.length) (i : Nat) :
    ∃ k a ev, x.steps = k + 1 ∧ x.answers = a ++ [half x.e9] ∧
      x.events s.a7 s.wdata = ev ++ [.rd .star1 (x.e9.setWidth 32)] ∧
      s.Covers ⟨.w .w1, i, b⟩ k a ev ⟨.w .w9, s.wdata.length, b⟩ := by
  obtain ⟨h1, h3, h5, hlen, hdata, h7⟩ := hx
  have hw1 := covers_writePoll (p := .w1) hr ho b h1 i fun _ => rfl
  have hw2 := covers_writeSetBits (p := .w2) hr ho b x.v2 i fun _ => rfl
  have hw3 := covers_writePoll (p := .w3) hr ho b h3 i fun _ => rfl
  have hw4 := covers_w4 hr ho b i
  have hw5 := covers_w5 hr ho b h5 i
  have hw6 := covers_writeBytes hr ho b x.data hdata 0 (by omega)
  have hw7 := covers_writePoll (p := .w7) hr ho b h7 s.wdata.length fun _ => rfl
  have hw8 := covers_writeSetBits (p := .w8) hr ho b x.v8 s.wdata.length fun _ => rfl
  have hstart := covers_trans (covers_trans (covers_trans hw1 hw2) hw3) hw4
  have hend := covers_trans hw7 hw8
  refine ⟨_, _, _, ?_, ?_, ?_, covers_trans (covers_trans (covers_trans hstart hw5) hw6) hend⟩
  · simp only [WriteScript.steps]
    omega
  · simp [WriteScript.answers]
  · have hbytes : (fun d : PollScript × Byte => d.1.events ++ [.wr .datar (d.2.setWidth 32)]) = byteEvents := rfl
    simp [WriteScript.events, startMask_eq, stopMask_eq, hbytes]

/-- R155, R170: a WRITE over a script whose polls exit runs to its error check and leaves it with the check's code. -/
theorem write_runs {x : WriteScript} (hx : x.exits s.wdata.length) (i : Nat) (e : EnvRegs) (n : Nat) (tr : List Event)
    (more : List Answer) : ∃ e',
    runFor x.steps (s.during e (x.answers ++ more) n tr i (.w .w1) b) = .next
      ((s.during e' more (n + x.answers.length) (tr ++ x.events s.a7 s.wdata) s.wdata.length (.w .w9) b).leaveCheck
        (classify (x.e9.setWidth 32))) := by
  obtain ⟨k, a, ev, hsteps, hanswers, hevents, hrun⟩ := write_covers_check hr ho b hx i
  obtain ⟨e₁, hrun⟩ := hrun e n tr (half x.e9 :: more)
  have hw9 : step (s.during e₁ (half x.e9 :: more) (n + a.length) (tr ++ ev) s.wdata.length (.w .w9) b) =
      .next (s.during e₁ (half x.e9 :: more) (n + a.length) (tr ++ ev) s.wdata.length (.w .w9) b).endWrite :=
    step_during_write hr ho ..
  rw [endWrite_eq_leaveCheck, State.afterCheck, answer_half rfl, readReg_during_half] at hw9
  refine ⟨e₁.set .star1 (x.e9.setWidth 32), ?_⟩
  rw [hsteps, hanswers, hevents, List.append_assoc, List.length_append, ← Nat.add_assoc, ← List.append_assoc tr]
  exact (runFor_add hrun).trans (runFor_succ_of hw9)

end

/-- R70-R78: the port decodes the word of a WRITE_READ. -/
theorem decode_encode_writeRead (a : BitVec 7) : decode (encode (.writeRead a)) = .ok (.writeRead a) := by
  obtain ⟨hop, hrsvd⟩ := Laws.WordShape.writeRead a
  have ha : cwField (encode (.writeRead a)) 4 7 = a := by
    revert a
    decide
  rw [decode, hop]
  exact (if_pos hrsvd).trans (by rw [Instr.opcode, instrOf, ha])

/-- Settles O30: the acceptance leaves the state at W1 with `thenRead` set, the write half runs to its check, and a code
other than OK is posted there. -/
theorem writeReadStopsAtAWriteError : Obligations.WriteReadStopsAtAWriteError := by
  intro a o rest x more s hr hp howned hh hx hcode ha
  have hrefusal : refusalOf (.writeRead a) s.owned o = none :=
    (owned_admitted (by simp [Instr.opcode]) (by simp [Instr.opcode]) _ o).mpr howned
  have hacc := step_accepted (resetAsserted_of_empty hr) hp hh (decode_encode_writeRead a) hrefusal
  rw [clockPin_of_empty hr] at hacc
  obtain ⟨e', hrun⟩ := write_runs (s := acceptance (.writeRead a) o s.takeCommand) hr (.inr rfl) o.rbuf hx s.i s.env
    s.reads s.trace more
  rw [leaveCheck_error hcode, ← ha] at hrun
  have hrest : s.host.tail = rest := by rw [hh]; rfl
  refine ⟨e', (runFor_succ_of hacc).trans (hrun.trans ?_)⟩
  rw [← hrest, hp]
  rfl

end Sys2Proof.Machine

namespace Sys2Proof.Machine

/-! ## The command word by its fields (R71-R78) -/

/-- R71: the value of `CW[3:0]` for an opcode. -/
def opcodeBits : Opcode → BitVec 4
  | .resolve => 1
  | .openEngine => 2
  | .closeEngine => 3
  | .write => 4
  | .read => 5
  | .writeRead => 6

/-- R71: the opcode map, row by row. -/
theorem opcodeOf_eq_some (w : Word) (op : Opcode) : opcodeOf w = some op ↔ cwField w 0 4 = opcodeBits op := by
  unfold opcodeOf
  generalize cwField w 0 4 = c
  cases op <;> revert c <;> decide

/-- R71, R77: a word has no opcode exactly when `CW[3:0]` is reserved. -/
theorem opcodeOf_eq_none (w : Word) :
    opcodeOf w = none ↔ (cwField w 0 4).toNat = 0 ∨ 7 ≤ (cwField w 0 4).toNat := by
  unfold opcodeOf
  generalize cwField w 0 4 = c
  revert c
  decide

/-- R76, R77: a word decodes to the command its opcode and fields name, if its reserved bits are 0. -/
theorem decode_eq_ok (w : Word) (i : Instr) :
    decode w = .ok i ↔ ∃ op, opcodeOf w = some op ∧ w >>> reservedFrom op = 0#32 ∧ instrOf w op = i := by
  unfold decode
  cases opcodeOf w with
  | none => simp
  | some op =>
    by_cases hr : w >>> reservedFrom op = 0#32 <;> simp [hr]

theorem instrOf_opcode (w : Word) (op : Opcode) : (instrOf w op).opcode = op := by
  cases op <;> rfl

/-- R72-R75: a command's word has its opcode and 0 in its reserved bits. -/
theorem encode_wordShape (i : Instr) : Laws.WordShape.Statement i := by
  cases i with
  | resolve d => exact Laws.WordShape.resolve d
  | openEngine r d => exact Laws.WordShape.openEngine r d
  | closeEngine => exact Laws.WordShape.closeEngine
  | write a => exact Laws.WordShape.write a
  | read a => exact Laws.WordShape.read a
  | writeRead a => exact Laws.WordShape.writeRead a

theorem bit_dutyOfBit (b : BitVec 1) : (dutyOfBit b).bit = b := by
  revert b
  decide

/-- R76: the fields read from a command's word are the command's. -/
theorem instrOf_encode (i : Instr) : instrOf (encode i) i.opcode = i := by
  cases i with
  | resolve d => cases d <;> decide
  | openEngine r d => cases d <;> revert r <;> decide
  | closeEngine => rfl
  | write a | read a | writeRead a => revert a; decide

/-- A field above another and that one are one longer field. -/
theorem cwField_append {hi lo len : Nat} (h : hi = lo + len) (w : Word) (n : Nat) :
    cwField w hi n ++ cwField w lo len = cwField w lo (n + len) :=
  BitVec.extractLsb'_append_extractLsb'_eq_extractLsb' h

theorem cwField_all (w : Word) : cwField w 0 32 = w := BitVec.extractLsb'_eq_self

/-- Reserved bits that are 0 are a field of zeros. -/
theorem cwField_reserved {w : Word} {k : Nat} (h : w >>> k = 0#32) (n : Nat) : cwField w k n = 0#n := by
  rw [cwField, ← BitVec.setWidth_ushiftRight_eq_extractLsb, h]
  exact BitVec.setWidth_zero ..

section
variable {w : Word} {c : BitVec 4} (hc : cwField w 0 4 = c)
include hc

/-- R72: a word of the format F_TIM by its fields. -/
theorem fields_tim (hr : w >>> 5 = 0#32) : 0#27 ++ cwField w 4 1 ++ c = w := by
  rw [← cwField_reserved hr 27, ← hc, cwField_append (rfl : 5 = 4 + 1), cwField_append (rfl : 4 = 0 + 4)]
  exact cwField_all w

/-- R73: a word of the format F_OPEN by its fields. -/
theorem fields_open (hr : w >>> 7 = 0#32) : 0#25 ++ cwField w 5 2 ++ cwField w 4 1 ++ c = w := by
  rw [← cwField_reserved hr 25, ← hc, cwField_append (rfl : 7 = 5 + 2), cwField_append (rfl : 5 = 4 + 1),
    cwField_append (rfl : 4 = 0 + 4)]
  exact cwField_all w

/-- R74: a word of the format F_NONE by its fields. -/
theorem fields_none (hr : w >>> 4 = 0#32) : 0#28 ++ c = w := by
  rw [← cwField_reserved hr 28, ← hc, cwField_append (rfl : 4 = 0 + 4)]
  exact cwField_all w

/-- R75: a word of the format F_XFER by its fields. -/
theorem fields_xfer (hr : w >>> 11 = 0#32) : 0#21 ++ cwField w 4 7 ++ c = w := by
  rw [← cwField_reserved hr 21, ← hc, cwField_append (rfl : 11 = 4 + 7), cwField_append (rfl : 4 = 0 + 4)]
  exact cwField_all w

end

/-- R72-R75: a word with an opcode and 0 in its reserved bits is the word of the command it names. -/
theorem encode_instrOf {w : Word} {op : Opcode} (hop : opcodeOf w = some op) (hr : w >>> reservedFrom op = 0#32) :
    encode (instrOf w op) = w := by
  have hcode := (opcodeOf_eq_some w op).mp hop
  cases op with
  | resolve =>
    rw [instrOf, encode, bit_dutyOfBit]
    exact fields_tim hcode hr
  | openEngine =>
    rw [instrOf, encode, bit_dutyOfBit]
    exact fields_open hcode hr
  | closeEngine => exact fields_none hcode hr
  | write | read | writeRead => exact fields_xfer hcode hr

/-- Settles O1: a command's word has the command's shape and fields, and a word of that shape is its command's word. -/
theorem decodeAndEncodeAgree : Obligations.DecodeAndEncodeAgree := by
  intro w i
  rw [decode_eq_ok]
  constructor
  · rintro ⟨op, hop, hr, rfl⟩
    exact encode_instrOf hop hr
  · rintro rfl
    obtain ⟨hop, hr⟩ := encode_wordShape i
    exact ⟨i.opcode, hop, hr, instrOf_encode i⟩

/-- Settles O4: each word is the encoding of its command. -/
theorem wordsOfTheSpecDecode : Obligations.WordsOfTheSpecDecode := by
  refine ⟨?_, ?_, ?_, ?_, ?_, ?_⟩ <;> exact (decodeAndEncodeAgree _ _).mpr (by decide)

/-- Settles O5: each preset's speed is the full form's. -/
theorem presetsExpand : Obligations.PresetsExpand := by
  intro pclk r ps
  cases ps <;> exact ⟨rfl, rfl⟩

/-- Settles O53: this is what the port of an idle block does with a word that decodes. -/
theorem stepRunsTheDecodedCommand : Obligations.StepRunsTheDecodedCommand :=
  fun _ _ _ _ hr hp hh hd => step_port hr hp hh hd

end Sys2Proof.Machine

namespace Sys2Proof.Machine

/-! ## The opcode table (R71) -/

/-- The mask of `CW[3:0]` and `CW[31:k]`. -/
def opcodeMask (k : Nat) : Word := (BitVec.allOnes 4).setWidth 32 ||| BitVec.allOnes 32 <<< k

theorem opcodeMask_getLsbD {j : Nat} (hj : j < 32) (k : Nat) : (opcodeMask k).getLsbD j = decide (j < 4 ∨ k ≤ j) := by
  have hjk : j - k < 32 := by omega
  simp only [opcodeMask, BitVec.getLsbD_or, BitVec.getLsbD_setWidth, BitVec.getLsbD_shiftLeft,
    BitVec.getLsbD_allOnes, hj, hjk]
  rw [Bool.eq_iff_iff]
  simp

/-- The row of the table for an opcode. -/
def tableRow (op : Opcode) : TableRow :=
  ⟨op.mnemonic, opcodeMask (reservedFrom op), (opcodeBits op).setWidth 32⟩

theorem mem_opcodeTable {row : TableRow} (h : row ∈ opcodeTable) : ∃ op, row = tableRow op := by
  have htable : opcodeTable =
      [.resolve, .openEngine, .closeEngine, .write, .read, .writeRead].map tableRow := by decide
  rw [htable, List.mem_map] at h
  obtain ⟨op, -, rfl⟩ := h
  exact ⟨op, rfl⟩

theorem mnemonic_injective : Function.Injective Opcode.mnemonic := by
  intro a b
  cases a <;> cases b <;> decide

/-- Under that mask a word shows those two fields. -/
theorem and_opcodeMask_eq (w : Word) {k : Nat} (hk : 4 ≤ k) (c : BitVec 4) :
    w &&& opcodeMask k = c.setWidth 32 ↔ cwField w 0 4 = c ∧ w >>> k = 0#32 := by
  have hbits : w &&& opcodeMask k = c.setWidth 32 ↔
      ∀ j < 32, (w.getLsbD j && decide (j < 4 ∨ k ≤ j)) = c.getLsbD j := by
    rw [BitVec.eq_of_getLsbD_eq_iff]
    refine forall₂_congr fun j hj => ?_
    rw [BitVec.getLsbD_and, opcodeMask_getLsbD hj, BitVec.getLsbD_setWidth, decide_eq_true hj, Bool.true_and]
  rw [hbits]
  constructor
  · intro h
    constructor
    · ext j hj
      simpa [cwField, hj] using h j (by omega)
    · ext j hj
      have hc : c.getLsbD (k + j) = false := BitVec.getLsbD_of_ge c (k + j) (by omega)
      by_cases hjk : k + j < 32
      · simpa [hc] using h (k + j) hjk
      · simpa using BitVec.getLsbD_of_ge w (k + j) (by omega)
  · rintro ⟨rfl, hr⟩ j -
    have hreserved : k ≤ j → w.getLsbD j = false := fun hkj => by
      have := congrArg (BitVec.getLsbD · (j - k)) hr
      rwa [BitVec.getLsbD_ushiftRight, Nat.add_sub_cancel' hkj, BitVec.getLsbD_zero] at this
    by_cases hj : j < 4
    · simp [cwField, hj]
    · by_cases hkj : k ≤ j <;> simp [cwField, hj, hkj, hreserved]

/-- R71: a word matches a row exactly when it has the row's opcode and 0 in its reserved bits. -/
theorem matches_tableRow (w : Word) (op : Opcode) :
    w &&& (tableRow op).mask = (tableRow op).pattern ↔ opcodeOf w = some op ∧ w >>> reservedFrom op = 0#32 := by
  rw [opcodeOf_eq_some, tableRow]
  exact and_opcodeMask_eq w (by cases op <;> decide) (opcodeBits op)

/-- Settles O2: matching a row is having its opcode and no reserved bit set, which is decoding to its command. -/
theorem decodeFollowsTheOpcodeTable : Obligations.DecodeFollowsTheOpcodeTable := by
  intro row hrow w
  obtain ⟨op, rfl⟩ := mem_opcodeTable hrow
  rw [matches_tableRow]
  constructor
  · rintro ⟨hop, hr⟩
    exact ⟨instrOf w op, (decode_eq_ok w _).mpr ⟨op, hop, hr, rfl⟩, by rw [instrOf_opcode]; rfl⟩
  · rintro ⟨i, hd, hm⟩
    obtain ⟨op', hop, hr, rfl⟩ := (decode_eq_ok w i).mp hd
    rw [instrOf_opcode] at hm
    obtain rfl := mnemonic_injective hm
    exact ⟨hop, hr⟩

end Sys2Proof.Machine

namespace Sys2Proof.Machine

/-! ## Words that do not decode (R77) -/

theorem decode_rfOpcode {w : Word} (h : opcodeOf w = none) : decode w = .error .rfOpcode := by
  simp [decode, h]

theorem decode_rfRsvd {w : Word} {op : Opcode} (hop : opcodeOf w = some op) (hr : 2 ^ reservedFrom op ≤ w.toNat) :
    decode w = .error .rfRsvd := by
  have hne : w >>> reservedFrom op ≠ 0#32 := by
    intro h
    have hdiv : w.toNat / 2 ^ reservedFrom op = 0 := by
      simpa [Nat.shiftRight_eq_div_pow] using congrArg BitVec.toNat h
    have := Nat.div_pos hr (Nat.two_pow_pos _)
    omega
  simp [decode, hop, hne]

/-- R71: the opcode of a word by its value modulo 16. -/
theorem cwField_opcode_toNat (w : Word) : (cwField w 0 4).toNat = w.toNat % 16 := by
  simp [cwField]

theorem opcodeOf_of_mod {w : Word} {op : Opcode} (h : w.toNat % 16 = (opcodeBits op).toNat) : opcodeOf w = some op :=
  (opcodeOf_eq_some w op).mpr (BitVec.eq_of_toNat_eq ((cwField_opcode_toNat w).trans h))

/-- Settles O3: the opcode map and the reserved bits decide the reason, and the port refuses what does not decode. -/
theorem reservedWordsAreRefused : Obligations.ReservedWordsAreRefused := by
  refine ⟨fun w => ⟨fun h => ?_, fun h => ?_, fun h => ?_, fun h => ?_, fun hlo hhi hr => ?_⟩, ?_⟩
  · exact decode_rfOpcode ((opcodeOf_eq_none w).mpr (by rwa [cwField_opcode_toNat]))
  · exact decode_rfRsvd (opcodeOf_of_mod (op := .resolve) h)
  · exact decode_rfRsvd (opcodeOf_of_mod (op := .openEngine) h)
  · exact decode_rfRsvd (opcodeOf_of_mod (op := .closeEngine) h)
  · obtain h | h | h : w.toNat % 16 = 4 ∨ w.toNat % 16 = 5 ∨ w.toNat % 16 = 6 := by omega
    · exact decode_rfRsvd (opcodeOf_of_mod (op := .write) h) hr
    · exact decode_rfRsvd (opcodeOf_of_mod (op := .read) h) hr
    · exact decode_rfRsvd (opcodeOf_of_mod (op := .writeRead) h) hr
  · intro s c rest reason hr hp hh hd
    have hrest : s.host.tail = rest := by rw [hh]; rfl
    rw [step_refused hr hp hh (by simp [portRefusal, hd]), ← hrest]
    rfl

end Sys2Proof.Machine

namespace Sys2Proof.Machine

/-! ## The fields OPEN writes, bit by bit (R83, R87, R88) -/

/-- R12 `WriteField`: a bit of the field is the value's, any other is as read. -/
theorem getLsbD_writeField (v x m : Word) {k : Nat} (hk : k < 32) :
    ((v &&& ~~~m) ||| (x &&& m)).getLsbD k = if m.getLsbD k then x.getLsbD k else v.getLsbD k := by
  rw [BitVec.getLsbD_or, BitVec.getLsbD_and, BitVec.getLsbD_and, BitVec.getLsbD_not, decide_eq_true hk]
  cases m.getLsbD k <;> simp

/-- R87: the remap bits of PCFR1. -/
theorem remapMask_getLsbD : ∀ k < 32, (0x00400002#32).getLsbD k = decide (k = 1 ∨ k = 22) := by decide

/-- R83: the bits of CKCFGR that O9 writes. -/
theorem timingMask_getLsbD : ∀ k < 32, (0xCFFF#32).getLsbD k = decide (k < 12 ∨ k = 14 ∨ k = 15) := by decide

/-- R87: `remap[0]` and `remap[1]` in their places. -/
theorem remapField_getLsbD (r : BitVec 2) :
    (remapField r).getLsbD 1 = r.getLsbD 0 ∧ (remapField r).getLsbD 22 = r.getLsbD 1 := by
  revert r
  decide

/-- R83: the low bits of the divider, the duty bit and the fast-mode bit in their places. -/
theorem timingField_getLsbD (t : Timing) :
    (∀ k < 12, (timingField t).getLsbD k = t.div.getLsbD k) ∧
    (timingField t).getLsbD 14 = t.duty.getLsbD 0 ∧ (timingField t).getLsbD 15 = t.fs.getLsbD 0 := by
  have hmask : ∀ k < 32, (0x0FFF#32).getLsbD k = decide (k < 12) := by decide
  rw [timingField_eq]
  refine ⟨fun k hk => ?_, by simp, by simp⟩
  have hk14 : k < 14 := by omega
  have hk15 : k < 15 := by omega
  rw [BitVec.getLsbD_or, BitVec.getLsbD_or, BitVec.getLsbD_and, hmask k (by omega)]
  simp [hk, hk14, hk15]

/-- Settles O14: a written field is the value in the field's bits, and those bits are the remap's and the timing's. -/
theorem openFieldsBitByBit : Obligations.OpenFieldsBitByBit := by
  refine ⟨fun v r k hk => ?_, fun v t k hk => ?_⟩
  · obtain ⟨h0, h1⟩ := remapField_getLsbD r
    rw [getLsbD_writeField _ _ _ hk, remapMask_getLsbD k hk]
    by_cases hk1 : k = 1
    · simpa [hk1] using h0
    · by_cases hk22 : k = 22
      · simpa [hk22] using h1
      · simp [hk1, hk22]
  · obtain ⟨hdiv, hduty, hfs⟩ := timingField_getLsbD t
    rw [getLsbD_writeField _ _ _ hk, timingMask_getLsbD k hk]
    by_cases hk12 : k < 12
    · simp [hk12, hdiv k hk12]
    · by_cases hk14 : k = 14
      · simpa [hk14] using hduty
      · by_cases hk15 : k = 15
        · simpa [hk15] using hfs
        · simp [hk12, hk14, hk15]

end Sys2Proof.Machine

namespace Sys2Proof.Machine

/-! ## The environment's registers hold what crossed the interface (log entry 16) -/

/-- The environment's registers after an event: a read or a write leaves its value, a byte to RBUF does not concern
them. -/
def EnvRegs.afterEvent (e : EnvRegs) : Event → EnvRegs
  | .rd r v | .wr r v => e.set r v
  | .hb _ _ => e

theorem openPhase_env (s : State) (p : OpenPhase) :
    (openPhase p s).env = (rmwEvents s (openReg p) (openValue s p)).foldl EnvRegs.afterEvent s.env := by
  cases p <;>
    simp [openPhase, rmwEvents, openReg, openValue, State.setBits, State.clearBits, State.writeField, modifyReg_eq,
      EnvRegs.afterEvent]

theorem afterRmw_env (s : State) (r : Reg) (f : Word → Word) (p : Phase) :
    (s.afterRmw r (f (s.answer r)) p).env = (rmwEvents s r f).foldl EnvRegs.afterEvent s.env := by
  simp [rmwEvents, State.afterRmw, EnvRegs.afterEvent]

theorem writePhase_env {p : WritePhase} {s t : State} (hp : s.pc = .w p) (h : writePhase p s = .next t) :
    t.env = (phaseEvents s).foldl EnvRegs.afterEvent s.env := by
  cases p <;>
    simp only [writePhase, poll_goto, poll_startWriteData, State.setBits, modifyReg_goto, phaseEvents, hp] at h ⊢
  case w6d =>
    split at h <;> cases h
    rename_i b hb
    rw [hb]
    rfl
  case w2 =>
    cases h
    exact afterRmw_env s .ctlr1 (fun v => v ||| startMask) _
  case w8 =>
    cases h
    exact afterRmw_env s .ctlr1 (fun v => v ||| stopMask) _
  case w5 =>
    cases h
    split <;> rfl
  case w9 =>
    cases h
    unfold State.endWrite
    split <;> rfl
  all_goals
    cases h
    rfl

theorem readPhase_env {p : ReadPhase} {s t : State} (hp : s.pc = .r p) (h : readPhase p s = .next t) :
    t.env = (phaseEvents s).foldl EnvRegs.afterEvent s.env := by
  cases p <;>
    simp only [readPhase, poll_goto, poll_startReadData, State.setBits, modifyReg_goto, phaseEvents, hp] at h ⊢
  case r6d =>
    split at h <;> cases h
    rfl
  case r2 =>
    cases h
    exact afterRmw_env s .ctlr1 (fun v => v ||| startMask) _
  case r7 =>
    cases h
    exact afterRmw_env s .ctlr1 (fun v => v ||| stopMask) _
  case r5 =>
    cases h
    split <;> rfl
  all_goals
    cases h
    rfl

/-- A running phase changes the environment's registers by the events it records, and by nothing else. -/
theorem phaseStep_env {s t : State} (h : phaseStep s = .next t) :
    t.env = (phaseEvents s).foldl EnvRegs.afterEvent s.env := by
  cases hp : s.pc <;> simp only [phaseStep, hp] at h
  case idle => cases h
  case s1 =>
    cases h
    simp only [phaseEvents, hp]
    rfl
  case o p =>
    cases h
    simp only [phaseEvents, hp]
    exact openPhase_env s p
  case c1 =>
    cases h
    simp only [phaseEvents, hp, closePhase_eq]
    exact afterRmw_env s .ctlr1 (fun v => v &&& ~~~peMask) .idle
  case w p => exact writePhase_env hp h
  case r p => exact readPhase_env hp h

/-- A step changes the environment's registers by the events it records, and by nothing else. -/
theorem step_env {s t : State} (h : step s = .next t) : t.env = (stepEvents s).foldl EnvRegs.afterEvent s.env := by
  unfold stepEvents
  rcases step_next h with ⟨hr, rfl⟩ | ⟨-, hp, -, rfl⟩ | ⟨-, hp, -, rfl⟩ | ⟨-, hp, c, rest, i, -, -, -, rfl⟩ |
    ⟨hr, hp, -, hs⟩
  · rw [if_pos (.inl hr)]
    rfl
  · rw [if_pos (.inr hp)]
    rfl
  · rw [if_pos (.inr hp)]
    rfl
  · rw [if_pos (.inr hp)]
    cases i <;> rfl
  · rw [if_neg (by simp [hr, hp])]
    exact phaseStep_env (s := s.clockPin) hs

/-- R80: no event is an access to OADDR1 and OADDR2. -/
theorem afterEvents_oaddr (ev : List Event) (e : EnvRegs) :
    (ev.foldl EnvRegs.afterEvent e).oaddr1 = e.oaddr1 ∧ (ev.foldl EnvRegs.afterEvent e).oaddr2 = e.oaddr2 := by
  induction ev generalizing e with
  | nil => exact ⟨rfl, rfl⟩
  | cons x xs ih =>
    obtain ⟨h1, h2⟩ := ih (e.afterEvent x)
    rw [List.foldl_cons, h1, h2]
    cases x with
    | hb => exact ⟨rfl, rfl⟩
    | rd r v | wr r v => cases r <;> exact ⟨rfl, rfl⟩

/-- Settles O40: a step changes the environment's registers by its events alone, and no register of an event is OADDR1
or OADDR2. -/
theorem unaccessedRegistersKeepTheirValues : Obligations.UnaccessedRegistersKeepTheirValues := by
  intro s t ev h _
  obtain ⟨h1, h2⟩ := afterEvents_oaddr (stepEvents s) s.env
  rw [step_env h]
  exact ⟨h1, h2, fun r _ _ => by cases r <;> decide⟩

end Sys2Proof.Machine

namespace Sys2Proof.Machine

/-! ## The control bits of CTLR1 (R81) -/

/-- R81, R123, R161, R211: which phase sets or clears which bit of CTLR1. -/
inductive ControlMove : Phase → Nat → Bool → Prop
  | setSwrst : ControlMove (.o .o5) 15 true
  | clearSwrst : ControlMove (.o .o6) 15 false
  | setPe : ControlMove (.o .o10) 0 true
  | clearPe : ControlMove .c1 0 false
  | setAck : ControlMove (.o .o11) 10 true
  | writeStart : ControlMove (.w .w2) 8 true
  | readStart : ControlMove (.r .r2) 8 true
  | writeStop : ControlMove (.w .w8) 9 true
  | readStop : ControlMove (.r .r7) 9 true

/-- `w` has the value `b` in bit `j` and is `v` in every other bit. -/
def SetsBit (v w : Word) (j : Nat) (b : Bool) : Prop := w.getLsbD j = b ∧ ∀ k, k ≠ j → w.getLsbD k = v.getLsbD k

/-- A bit that changed is the one that was set. -/
theorem setsBit_changed {v w : Word} {j k : Nat} {b : Bool} (h : SetsBit v w j b) (hk : w.getLsbD k ≠ v.getLsbD k) :
    k = j ∧ w.getLsbD k = b := by
  obtain ⟨hj, hothers⟩ := h
  obtain rfl : k = j := by_contra fun hne => hk (hothers k hne)
  exact ⟨rfl, hj⟩

/-- A register's bit `j` as a mask. -/
theorem regBit_getLsbD {j : Nat} (hj : j < 32) (k : Nat) : (regBit j).getLsbD k = decide (j = k) := by
  change (BitVec.twoPow 32 j).getLsbD k = _
  simp [BitVec.getLsbD_twoPow, hj]

/-- R12 `SetBits` of one bit. -/
theorem setsBit_or (v : Word) {j : Nat} (hj : j < 32) : SetsBit v (v ||| regBit j) j true := by
  refine ⟨?_, fun k hk => ?_⟩
  · simp [regBit_getLsbD hj]
  · simp [regBit_getLsbD hj, hk.symm]

/-- R12 `ClearBits` of one bit. -/
theorem setsBit_andNot (v : Word) {j : Nat} (hj : j < 32) : SetsBit v (v &&& ~~~regBit j) j false := by
  refine ⟨?_, fun k hk => ?_⟩
  · simp [regBit_getLsbD hj]
  · simpa [regBit_getLsbD hj, hk.symm] using BitVec.lt_of_getLsbD

/-- R12: of the phases only those of the table access CTLR1, and each sets or clears its one bit. -/
theorem phaseEvents_ctlr1 {s : State} {v w : Word} (h : phaseEvents s = [.rd .ctlr1 v, .wr .ctlr1 w]) :
    ∃ j b, ControlMove s.pc j b ∧ SetsBit v w j b := by
  have hrmw {f : Word → Word} (h : rmwEvents s .ctlr1 f = [.rd .ctlr1 v, .wr .ctlr1 w]) : w = f v := by
    simp only [rmwEvents, List.cons.injEq, Event.rd.injEq, Event.wr.injEq, true_and, and_true] at h
    obtain ⟨rfl, rfl⟩ := h
    rfl
  cases hp : s.pc <;> simp only [phaseEvents, hp] at h
  case idle | s1 => cases h
  case o p =>
    cases p
    case o5 => exact ⟨_, _, .setSwrst, hrmw h ▸ setsBit_or v (by decide)⟩
    case o6 => exact ⟨_, _, .clearSwrst, hrmw h ▸ setsBit_andNot v (by decide)⟩
    case o10 => exact ⟨_, _, .setPe, hrmw h ▸ setsBit_or v (by decide)⟩
    case o11 => exact ⟨_, _, .setAck, hrmw h ▸ setsBit_or v (by decide)⟩
    all_goals simp [rmwEvents, openReg] at h
  case c1 => exact ⟨_, _, .clearPe, hrmw h ▸ setsBit_andNot v (by decide)⟩
  case w p =>
    cases p
    case w2 => exact ⟨_, _, .writeStart, hrmw h ▸ setsBit_or v (by decide)⟩
    case w8 => exact ⟨_, _, .writeStop, hrmw h ▸ setsBit_or v (by decide)⟩
    case w6d => cases hb : s.wbufByte s.i <;> simp [hb] at h
    all_goals simp [snapEvents] at h
  case r p =>
    cases p
    case r2 => exact ⟨_, _, .readStart, hrmw h ▸ setsBit_or v (by decide)⟩
    case r7 => exact ⟨_, _, .readStop, hrmw h ▸ setsBit_or v (by decide)⟩
    all_goals simp [snapEvents] at h

/-- Settles O42: a step that reads and writes CTLR1 makes one of the listed moves, so a bit that changed is that move's. -/
theorem controlBitsChangeOnlyInTheirPhases : Obligations.ControlBitsChangeOnlyInTheirPhases := by
  intro s t v w h he
  have hev : stepEvents s = [.rd .ctlr1 v, .wr .ctlr1 w] := List.append_cancel_left ((step_appends h).symm.trans he)
  have hphase : phaseEvents s = [.rd .ctlr1 v, .wr .ctlr1 w] := by
    unfold stepEvents at hev
    split at hev
    · cases hev
    · exact hev
  obtain ⟨j, b, hmove, hset⟩ := phaseEvents_ctlr1 hphase
  generalize s.pc = p at hmove ⊢
  refine ⟨fun hk => ?_, fun hk => ?_, fun hk => ?_, fun hk => ?_, fun hk => ?_, fun k h0 h8 h9 h10 h15 => ?_⟩
  · obtain ⟨rfl, hb⟩ := setsBit_changed hset hk
    cases hmove with
    | setPe => exact .inl ⟨rfl, hb⟩
    | clearPe => exact .inr ⟨rfl, hb⟩
  · obtain ⟨rfl, hb⟩ := setsBit_changed hset hk
    cases hmove with
    | setAck => exact ⟨rfl, hb⟩
  · obtain ⟨rfl, hb⟩ := setsBit_changed hset hk
    cases hmove with
    | writeStart => exact ⟨.inl rfl, hb⟩
    | readStart => exact ⟨.inr rfl, hb⟩
  · obtain ⟨rfl, hb⟩ := setsBit_changed hset hk
    cases hmove with
    | writeStop => exact ⟨.inl rfl, hb⟩
    | readStop => exact ⟨.inr rfl, hb⟩
  · obtain ⟨rfl, hb⟩ := setsBit_changed hset hk
    cases hmove with
    | setSwrst => exact .inl ⟨rfl, hb⟩
    | clearSwrst => exact .inr ⟨rfl, hb⟩
  · by_contra hk
    obtain ⟨rfl, -⟩ := setsBit_changed hset hk
    cases hmove <;> contradiction

end Sys2Proof.Machine

namespace Sys2Proof.Machine

/-! ## A busy block does not look at the host's coming commands (R70) -/

/-- `s` with other commands coming from the host. -/
def State.withHost (s : State) (h : List Command) : State := { s with host := h }

section
variable {s t : State} (q : List Command)

theorem answer_withHost (r : Reg) : (s.withHost q).answer r = s.answer r := rfl
theorem snap1_withHost : (s.withHost q).snap1 = s.snap1 := rfl
theorem snap2_withHost : (s.withHost q).snap2 = s.snap2 := rfl

theorem endWrite_withHost : (s.withHost q).endWrite = s.endWrite.withHost q := by
  have hth : (s.withHost q).thenRead = s.thenRead := rfl
  simp only [State.endWrite, hth, answer_withHost]
  split <;> rfl

theorem writePhase_withHost {p : WritePhase} (h : writePhase p s = .next t) :
    writePhase p (s.withHost q) = .next (t.withHost q) := by
  have hwb : (s.withHost q).wbufByte (s.withHost q).i = s.wbufByte s.i := rfl
  cases p <;> simp only [writePhase, poll_goto, poll_startWriteData, hwb, snap1_withHost, snap2_withHost] at h ⊢
  case w6d =>
    split at h <;> cases h
    rfl
  case w5 =>
    split at h <;> cases h <;> rename_i hP
    · exact congrArg _ (if_pos hP)
    · exact congrArg _ (if_neg hP)
  case w9 =>
    cases h
    exact congrArg _ (endWrite_withHost q)
  all_goals
    cases h
    rfl

theorem readPhase_withHost {p : ReadPhase} (h : readPhase p s = .next t) :
    readPhase p (s.withHost q) = .next (t.withHost q) := by
  cases p <;> simp only [readPhase, poll_goto, poll_startReadData, snap1_withHost, snap2_withHost] at h ⊢
  case r6d =>
    split at h <;> cases h
    rename_i hi
    exact if_pos hi
  case r5 =>
    split at h <;> cases h <;> rename_i hP
    · exact congrArg _ (if_pos hP)
    · exact congrArg _ (if_neg hP)
  all_goals
    cases h
    rfl

theorem phaseStep_withHost (h : phaseStep s = .next t) : phaseStep (s.withHost q) = .next (t.withHost q) := by
  have hpc : (s.withHost q).pc = s.pc := rfl
  cases hp : s.pc <;> simp only [phaseStep, hpc, hp] at h ⊢
  case idle => cases h
  case w p => exact writePhase_withHost q h
  case r p => exact readPhase_withHost q h
  case o p =>
    cases h
    cases p <;> rfl
  all_goals
    cases h
    rfl

end

/-- R70: a running phase takes no command. -/
theorem phaseStep_host {s t : State} (h : phaseStep s = .next t) : t.host = s.host := by
  by_cases hp : s.pc = .c1
  · rw [phaseStep_c1 hp h]
    rfl
  · rw [phaseStep_sameCommand hp h]

/-- Settles O45: a busy step is the block's reset or a running phase, and neither looks at the host's list or changes
it. -/
theorem hostHasNoMoveWhileBusy : Obligations.HostHasNoMoveWhileBusy := by
  intro s t q hp h
  rcases step_next h with ⟨hr, rfl⟩ | ⟨-, hidle, -⟩ | ⟨-, hidle, -⟩ | ⟨-, hidle, -⟩ | ⟨hr, -, hx, hs⟩
  · exact ⟨rfl, step_reset (s := s.withHost q) hr⟩
  · exact absurd hidle hp
  · exact absurd hidle hp
  · exact absurd hidle hp
  · have hruns : runsPhase s.current.opcode s.pc = true := ((exec_next_iff (s := s.clockPin) hp).mp hx).1
    exact ⟨phaseStep_host (s := s.clockPin) hs, (step_busy (s := s.withHost q) hr hp).trans
      ((exec_next_iff (s := (s.withHost q).clockPin) hp).mpr ⟨hruns, phaseStep_withHost (s := s.clockPin) q hs⟩)⟩

end Sys2Proof.Machine

namespace Sys2Proof.Machine

/-! ## The resolver, case by case (R101-R105) -/

theorem clamp_bounds {lo hi : Nat} (h : lo ≤ hi) (v : Nat) : lo ≤ clamp v lo hi ∧ clamp v lo hi ≤ hi :=
  ⟨le_min (le_max_right v lo) h, min_le_right _ _⟩

/-- R101: the spec's bounds. -/
theorem clampedClock_bounds (pclk : Word) :
    2000000 ≤ clampedClock params pclk ∧ clampedClock params pclk ≤ 36000000 :=
  clamp_bounds (by decide) pclk.toNat

section
variable (cfg : Params) (pclk speed : Word) (d : Duty)

theorem fastMode_eq_true : fastMode cfg speed = true ↔ cfg.stdMaxHz < speed.toNat := decide_eq_true_iff

theorem fastMode_eq_false : fastMode cfg speed = false ↔ speed.toNat ≤ cfg.stdMaxHz :=
  decide_eq_false_iff_not.trans Nat.not_lt

theorem resolveTiming_fs_eq_one : (resolveTiming cfg pclk speed d).fs = 1#1 ↔ fastMode cfg speed = true := by
  simp [resolveTiming]

theorem resolveTiming_fs_eq_zero : (resolveTiming cfg pclk speed d).fs = 0#1 ↔ fastMode cfg speed = false := by
  simp [resolveTiming]

variable {cfg pclk speed d}

/-- R103: with a denominator other than 0 and a clock of 32 bits the divider is the quotient of the naturals. -/
theorem divider_toNat (hden : divFactor cfg speed d * speed.toNat ≠ 0) (hclk : clampedClock cfg pclk < 2 ^ 32) :
    (divider cfg pclk speed d).toNat = clampedClock cfg pclk / (divFactor cfg speed d * speed.toNat) := by
  rw [divider, if_neg hden, BitVec.toNat_ofNat]
  exact Nat.mod_eq_of_lt ((Nat.div_le_self _ _).trans_lt hclk)

/-- R105: the duty bit follows the selection in fast mode, and in standard mode under `FromConfig`. -/
theorem dutyBit_eq_bit (h : fastMode cfg speed = true ∨ cfg.dutyBitStd = .fromConfig) :
    dutyBit cfg speed d = d.bit := by
  rcases h with h | h
  · simp [dutyBit, h]
  · cases hmode : fastMode cfg speed <;> simp [dutyBit, hmode, h]

/-- R105: in standard mode under `Zero` the duty bit is 0. -/
theorem dutyBit_eq_zero (hmode : fastMode cfg speed = false) (hstd : cfg.dutyBitStd = .zero) :
    dutyBit cfg speed d = 0#1 := by
  simp [dutyBit, hmode, hstd]

end

/-- R103: the spec's factors, by mode and selection. -/
theorem divFactor_params (speed : Word) (d : Duty) :
    divFactor params speed d =
      if speed.toNat ≤ 100000 then 2 else match d with | .lowDuty33 => 3 | .lowDuty36 => 25 := by
  by_cases h : speed.toNat ≤ 100000
  · have hmode := (fastMode_eq_false params speed).mpr h
    simp only [divFactor, hmode, if_pos h]
    rfl
  · have hmode := (fastMode_eq_true params speed).mpr (Nat.lt_of_not_le h)
    rw [if_neg h]
    cases d <;> simp only [divFactor, hmode] <;> rfl

/-- R108: a speed other than 0 gives a denominator other than 0. -/
theorem denominator_pos {speed : Word} (h : speed ≠ 0) (d : Duty) : 0 < divFactor params speed d * speed.toNat := by
  have hfactor : 0 < divFactor params speed d := by
    unfold divFactor
    split <;> decide
  exact Nat.mul_pos hfactor (Nat.pos_of_ne_zero fun hz => h (BitVec.eq_of_toNat_eq hz))

/-- Settles O6: each part of the timing by its case, the divider as a quotient of naturals; `DUTY_BIT_STD` is looked at
by the duty bit alone. -/
theorem resolvedTimingByCases : Obligations.ResolvedTimingByCases := by
  intro std pclk speed d hspeed t c den
  have hden : divFactor params speed d * speed.toNat = den := congrArg (· * speed.toNat) (divFactor_params speed d)
  have hpos : 0 < den := hden ▸ denominator_pos hspeed d
  have hclk : c < 2 ^ 32 := (clampedClock_bounds pclk).2.trans_lt (by decide)
  have hdiv : t.div.toNat = c / den := by
    rw [← hden] at hpos ⊢
    exact divider_toNat (cfg := { params with dutyBitStd := std }) hpos.ne' hclk
  refine ⟨(resolveTiming_fs_eq_one ..).trans (fastMode_eq_true ..), ?_, fun h => ?_, fun ⟨hfs, hz⟩ => ?_⟩
  · rw [hdiv]
    exact ⟨Nat.div_mul_le_self c den, (Nat.div_lt_iff_lt_mul hpos).mp (Nat.lt_succ_self _)⟩
  · exact dutyBit_eq_bit (h.imp_left (resolveTiming_fs_eq_one ..).mp)
  · exact dutyBit_eq_zero ((resolveTiming_fs_eq_zero ..).mp hfs) hz

end Sys2Proof.Machine

namespace Sys2Proof.Machine

/-! ## The clock-frequency field (R110) -/

theorem freqValue_bounds (pclk : Word) : 2 ≤ freqValue params pclk ∧ freqValue params pclk ≤ 36 := by
  obtain ⟨hlo, hhi⟩ := clampedClock_bounds pclk
  exact ⟨Nat.div_le_div_right (c := 1000000) hlo, Nat.div_le_div_right (c := 1000000) hhi⟩

/-- The low bits of a word are those of its number modulo a power of two. -/
theorem toNat_mod_two_pow_congr {v w : Word} {n : Nat} (h : ∀ k < n, v.getLsbD k = w.getLsbD k) :
    v.toNat % 2 ^ n = w.toNat % 2 ^ n := by
  refine Nat.eq_of_testBit_eq fun k => ?_
  simp only [Nat.testBit_mod_two_pow, BitVec.testBit_toNat]
  by_cases hk : k < n
  · rw [h k hk]
  · simp [hk]

/-- R82: FREQ is bits 5:0 of CTLR2. -/
theorem freqMask_getLsbD : ∀ k < 6, freqMask.getLsbD k = true := by decide

/-- R82, R110: FREQ holds the whole clock-frequency value once O8 has written it, whatever CTLR2 answered. -/
theorem openValue_o8_freq (s : State) (v : Word) : (openValue s .o8 v).toNat % 64 = freqValue params s.pclk := by
  have hle : freqValue params s.pclk ≤ 36 := (freqValue_bounds s.pclk).2
  calc (openValue s .o8 v).toNat % 2 ^ 6
      = (freqField s.pclk).toNat % 2 ^ 6 := toNat_mod_two_pow_congr fun k hk => by
        rw [openValue, getLsbD_writeField _ _ _ (by omega), if_pos (freqMask_getLsbD k hk)]
    _ = freqValue params s.pclk := by
        rw [freqField_eq, BitVec.toNat_ofNat]
        omega

/-- R121: a phase of OPEN, whatever fields its command has. -/
theorem exec_openPhase {s : State} {p : OpenPhase} (h : s.pc = .o p) (r : BitVec 2) (d : Duty) :
    exec (.openEngine r d) s = .next (openPhase p s) := by
  rw [exec_busy (by simp [h]), h]
  simp [Instr.opcode, runsPhase, phaseStep, h]

/-- R121: O8 is a read-modify-write of CTLR2. -/
theorem openPhase_o8 (s : State) :
    openPhase .o8 s = s.afterRmw .ctlr2 (openValue s .o8 (s.answer .ctlr2)) (.o .o9) :=
  modifyReg_goto ..

/-- Settles O8: the bounds are the clamp's in MHz, and O8 writes the value into a field that holds it. -/
theorem frequencyField : Obligations.FrequencyField := by
  intro r d s hp f
  obtain ⟨hlo, hhi⟩ := freqValue_bounds s.pclk
  refine ⟨hlo, hhi, openValue s .o8 (s.answer .ctlr2), openValue_o8_freq s _, ?_⟩
  rw [exec_openPhase hp, openPhase_o8]

end Sys2Proof.Machine

namespace Sys2Proof.Machine

/-! ## Speeds out of range (R107) -/

/-- R184, R185: the speed check is reached when the ownership is right. -/
theorem refusalOf_eq_rfSpeed {i : Instr} {owned : Bool} {o : Operands} (hstate : stateOk i owned = true)
    (hspeed : speedOk params i o = false) : refusalOf i owned o = some .rfSpeed := by
  simp [refusalOf, hstate, hspeed]

/-- R184: what a refusal leaves of the port's list. -/
theorem refuse_eq {s : State} {c : Command} {rest : List Command} (h : s.host = c :: rest) :
    s.refuse = { s with host := rest, refused := true } := by
  rw [State.refuse, h]
  rfl

/-- Settles O48: RESOLVE, and OPEN of a block the host holds, pass the ownership check, and the speed check decides. -/
theorem speedOutsideRangeIsRefused : Obligations.SpeedOutsideRangeIsRefused := by
  intro i s c rest hp hh hi
  have hstate : stateOk i s.owned = true := by
    rcases hi with ⟨d, rfl⟩ | ⟨r, d, rfl, ho⟩
    · rfl
    · simp [stateOk, ho]
  have hspeed : speedOk params i c.operands = true ↔
      1 ≤ c.operands.speed.toNat ∧ c.operands.speed.toNat ≤ 1000000 := by
    rcases hi with ⟨d, rfl⟩ | ⟨r, d, rfl, -⟩
    · exact speedOk_resolve d c.operands
    · exact speedOk_open r d c.operands
  refine ⟨fun hout => ?_, fun hlo hhi => ?_⟩
  · have hbad : speedOk params i c.operands = false := by
      rw [← Bool.not_eq_true, hspeed]
      omega
    have hr := refusalOf_eq_rfSpeed hstate hbad
    exact ⟨hr, (exec_refused hp hh hr).trans (congrArg _ (refuse_eq hh))⟩
  · have hwf : WellFormed params i c.operands = true := by
      simp [WellFormed, hspeed.mpr ⟨hlo, hhi⟩]
    exact (refusalOf_eq_none ..).mpr ⟨hstate, hwf⟩

end Sys2Proof.Machine

namespace Sys2Proof.Machine

/-! ## The port by ownership (R120, R126, R129) -/

/-- R184, R185: the ownership check comes first, so it decides alone whether RF_STATE is named. -/
theorem refusalOf_eq_rfState (i : Instr) (owned : Bool) (o : Operands) :
    refusalOf i owned o = some .rfState ↔ stateOk i owned = false := by
  unfold refusalOf
  cases stateOk i owned
  · simp
  · cases speedOk params i o <;> simp

section
variable {s : State} {i : Instr} {c : Command} {rest : List Command} (hp : s.pc = .idle) (hh : s.host = c :: rest)
include hp hh

/-- R129: a command in the wrong ownership state is refused for it, and the refusal sets the mark alone. -/
theorem exec_wrongOwnership (hs : stateOk i s.owned = false) :
    refusalOf i s.owned c.operands = some .rfState ∧ exec i s = .next { s with host := rest, refused := true } := by
  have hr := (refusalOf_eq_rfState i s.owned c.operands).mpr hs
  exact ⟨hr, (exec_refused hp hh hr).trans (congrArg _ (refuse_eq hh))⟩

/-- R70: an accepted command leaves the host's coming ones at the port. -/
theorem exec_accepted_eq (hr : refusalOf i s.owned c.operands = none) :
    exec i s = .next (acceptance i c.operands (s.withHost rest)) := by
  have htake : s.takeCommand = s.withHost rest := by
    rw [State.takeCommand, hh]
    rfl
  rw [exec_accepted hp hh hr, htake]

end

/-- Settles O47: in each row of the table the ownership check fails; for RESOLVE it passes in both states. -/
theorem wrongOwnershipIsRefused : Obligations.WrongOwnershipIsRefused := by
  intro i s c rest hp hh
  refine ⟨fun hw => exec_wrongOwnership hp hh ?_, fun d => ⟨rfl, fun hr => ?_⟩⟩
  · cases i with
    | resolve d => exact hw.elim
    | openEngine r d => exact congrArg (! ·) hw
    | closeEngine | write a | read a | writeRead a => exact hw
  · have hs : stateOk (.resolve d) s.owned = false := (refusalOf_eq_rfState ..).mp hr
    cases hs

/-- R120, R121: a phase that answers to OPEN is one of OPEN's, which keep the port and the ownership. -/
theorem exec_open_sameCommand {s t : State} {r : BitVec 2} {d : Duty} (hp : s.pc ≠ .idle)
    (h : exec (.openEngine r d) s = .next t) : s.SameCommand t := by
  obtain ⟨hruns, hs⟩ := (exec_next_iff hp).mp h
  refine phaseStep_sameCommand (fun hc => ?_) hs
  rw [hc] at hruns
  cases hruns

/-- Settles O11: at IDLE the ownership and speed checks decide; in the phases of OPEN the port is left alone. -/
theorem openOwnership : Obligations.OpenOwnership := by
  intro r d s c rest hh
  refine ⟨fun hp ho hlo hhi => ?_, fun hp ho => ?_, fun t hp h => ?_⟩
  · exact exec_accepted_eq hp hh ((open_admitted ..).mpr ⟨ho, hlo, hhi⟩)
  · exact exec_wrongOwnership hp hh (congrArg (! ·) ho)
  · rw [exec_open_sameCommand hp h]
    exact ⟨rfl, rfl⟩

/-! ## The phases of OPEN and CLOSE written out (R121, R126) -/

/-- The phase that follows one of OPEN's (R121). -/
def OpenPhase.next : OpenPhase → Phase
  | .o1 => .o .o2
  | .o2 => .o .o3
  | .o3 => .o .o4
  | .o4 => .o .o5
  | .o5 => .o .o6
  | .o6 => .o .o7
  | .o7 => .o .o8
  | .o8 => .o .o9
  | .o9 => .o .o10
  | .o10 => .o .o11
  | .o11 => .idle

/-- What a phase of OPEN gives `timing`: O9 alone resolves it. -/
def State.openTiming (s : State) : OpenPhase → Timing
  | .o9 => resolveTiming params s.pclk s.speed s.dutySel
  | _ => s.timing

/-- What a phase of OPEN gives `res`: O11 alone posts. -/
def State.openRes (s : State) : OpenPhase → ResultReg
  | .o11 => { s.res with done := true, code := .ok }
  | _ => s.res

/-- R121: every phase of OPEN is one read-modify-write and a move of `pc`, but for the timing at O9 and the result at
O11. -/
theorem openPhase_eq (p : OpenPhase) (s : State) :
    openPhase p s =
      { s.afterRmw (openReg p) (openValue s p (s.answer (openReg p))) p.next with
        timing := s.openTiming p, res := s.openRes p } := by
  cases p
  case o9 => exact modifyReg_goto s.latchTiming ..
  case o11 =>
    rw [openPhase, State.setBits, modifyReg_eq]
    rfl
  all_goals exact modifyReg_goto s ..

/-- Settles O12: each clause is the phase's read-modify-write, with the register map's masks in numbers. -/
theorem openPhases : Obligations.OpenPhases := by
  intro r d s
  have hphase (p : OpenPhase) (hp : s.pc = .o p) := (exec_openPhase hp r d).trans (congrArg _ (openPhase_eq p s))
  exact ⟨hphase .o1, hphase .o2, hphase .o3, hphase .o4, hphase .o5, hphase .o6, hphase .o7, hphase .o8, hphase .o9,
    hphase .o10, hphase .o11⟩

/-- R126: the one phase of CLOSE. -/
theorem exec_closePhase {s : State} (h : s.pc = .c1) : exec .closeEngine s = .next (closePhase s) := by
  rw [exec_next_iff (by simp [h]), h]
  exact ⟨rfl, by rw [phaseStep, h]⟩

/-- Settles O16: at IDLE the ownership check alone decides, and C1 is the read-modify-write that clears PE, with the
release and the post. -/
theorem closeAcceptedAndDone : Obligations.CloseAcceptedAndDone := by
  intro s
  refine ⟨fun c rest hp hh ho => ?_, fun c rest hp hh ho => ?_, fun hp => ?_⟩
  · exact exec_accepted_eq hp hh ((owned_admitted (by decide) (by decide) ..).mpr ho)
  · exact exec_wrongOwnership hp hh ho
  · exact (exec_closePhase hp).trans (congrArg _ (closePhase_eq s))

end Sys2Proof.Machine

namespace Sys2Proof.Machine

/-! ## The pairing of the status reads (R140, R210) -/

/-- A paired trace stays paired when events are added that are paired whatever came before. -/
theorem pairedFrom_append {b : Bool} {xs ys : List Event} (hx : pairedFrom b xs = true)
    (hy : ∀ c, pairedFrom c ys = true) : pairedFrom b (xs ++ ys) = true := by
  induction xs generalizing b with
  | nil => exact hy b
  | cons x xs ih =>
    cases x with
    | wr | hb => exact ih hx
    | rd r v =>
      cases r
      case star2 =>
        obtain ⟨hb, hx⟩ : b = true ∧ pairedFrom false xs = true := by simpa [pairedFrom] using hx
        simpa [pairedFrom, hb] using ih hx
      all_goals exact ih hx

/-- R56: a micro-operation that does not write STAR2 is paired whatever came before: the one that reads STAR2 reads
STAR1 first. -/
theorem pairedFrom_microOperation {ev : List Event} (h : IsMicroOperation ev) (hw : ∀ v, .wr .star2 v ∉ ev) (b : Bool) :
    pairedFrom b ev = true := by
  rcases h with rfl | ⟨v, rfl⟩ | ⟨v, rfl⟩ | ⟨r, v, w, rfl⟩ | ⟨v, w, rfl⟩ | ⟨v, k, rfl⟩
  case inr.inr.inr.inl =>
    cases r
    case star2 => exact absurd (by simp) (hw w)
    all_goals rfl
  all_goals rfl

/-- Settles O38: a step adds one micro-operation, and none that writes STAR2. -/
theorem statusReadsStayPaired : Obligations.StatusReadsStayPaired := by
  intro s t hs h
  obtain ⟨ev, ht, hev⟩ := oneMicroOperationPerStep s t h
  obtain ⟨hstatus, -⟩ := statusRegistersNeverWritten s t ev h ht
  rw [ht]
  exact pairedFrom_append hs (pairedFrom_microOperation hev fun v => (hstatus v).2)

end Sys2Proof.Machine

namespace Sys2Proof.Machine

/-! ## The wait predicates and the error check by their flags' bits (R141-R147, R150) -/

section
variable (s1 s2 : Word)

theorem pIdle_bits : pIdle params s1 s2 = !s2.getLsbD 1 := by
  simp only [pIdle, flagSet_busy]

theorem pMms_bits : pMms params s1 s2 = (s1.getLsbD 0 && s2.getLsbD 1 && s2.getLsbD 0) := by
  simp only [pMms, flagSet_sb, flagSet_busy, flagSet_msl]

theorem pMtms_bits :
    pMtms params s1 s2 = (s1.getLsbD 1 && s1.getLsbD 7 && s2.getLsbD 1 && s2.getLsbD 0 && s2.getLsbD 2) := by
  simp only [pMtms, flagSet_addr, flagSet_txe, flagSet_busy, flagSet_msl, flagSet_tra]

/-- R144: TxE counts under `READ_ADDR_WAIT_TXE` alone; the masks are those of the spec's map under both values. -/
theorem pMrms_bits (b : Bool) :
    pMrms { params with readAddrWaitTxe := b } s1 s2 =
      (s1.getLsbD 1 && (!b || s1.getLsbD 7) && s2.getLsbD 1 && s2.getLsbD 0) := by
  rw [← flagSet_addr, ← flagSet_txe, ← flagSet_busy, ← flagSet_msl]
  rfl

theorem pMrms_params_bits :
    pMrms params s1 s2 = (s1.getLsbD 1 && s1.getLsbD 7 && s2.getLsbD 1 && s2.getLsbD 0) :=
  pMrms_bits s1 s2 true

theorem pTxe_bits : pTxe params s1 s2 = s1.getLsbD 7 := by
  simp only [pTxe, flagSet_txe]

theorem pBtf_bits :
    pBtf params s1 s2 = (s1.getLsbD 2 && s1.getLsbD 7 && s2.getLsbD 1 && s2.getLsbD 0 && s2.getLsbD 2) := by
  simp only [pBtf, flagSet_btf, flagSet_txe, flagSet_busy, flagSet_msl, flagSet_tra]

theorem pRxne_bits : pRxne params s1 s2 = (s1.getLsbD 6 && s2.getLsbD 0 && s2.getLsbD 1) := by
  simp only [pRxne, flagSet_rxne, flagSet_msl, flagSet_busy]

end

/-- Settles O18: each predicate's flags are the named bits. -/
theorem waitPredicatesByFlagBits : Obligations.WaitPredicatesByFlagBits := fun s1 s2 =>
  ⟨pIdle_bits s1 s2, pMms_bits s1 s2, pMtms_bits s1 s2, pMrms_params_bits s1 s2,
    (pMrms_bits s1 s2 false).trans (by rw [Bool.not_false, Bool.true_or, Bool.and_true]), pTxe_bits s1 s2,
    pBtf_bits s1 s2, pRxne_bits s1 s2⟩

/-- R141-R147: the predicates of the polling phases. -/
theorem pollOf_predicate {p : Phase} {P : Word → Word → Bool} (h : pollOf p = some P) :
    P = pIdle params ∨ P = pMms params ∨ P = pMtms params ∨ P = pMrms params ∨ P = pTxe params ∨ P = pBtf params ∨
      P = pRxne params := by
  unfold pollOf at h
  split at h <;> cases h <;> simp only [true_or, or_true]

/-- R149: of STAR1 a wait predicate can read the low eight bits. -/
theorem pollOf_congr {p : Phase} {P : Word → Word → Bool} (h : pollOf p = some P) {s1 s1' : Word}
    (hlow : ∀ k < 8, s1.getLsbD k = s1'.getLsbD k) (s2 : Word) : P s1 s2 = P s1' s2 := by
  rcases pollOf_predicate h with rfl | rfl | rfl | rfl | rfl | rfl | rfl
  · rw [pIdle_bits, pIdle_bits]
  · rw [pMms_bits, pMms_bits, hlow 0 (by decide)]
  · rw [pMtms_bits, pMtms_bits, hlow 1 (by decide), hlow 7 (by decide)]
  · rw [pMrms_params_bits, pMrms_params_bits, hlow 1 (by decide), hlow 7 (by decide)]
  · rw [pTxe_bits, pTxe_bits, hlow 7 (by decide)]
  · rw [pBtf_bits, pBtf_bits, hlow 2 (by decide), hlow 7 (by decide)]
  · rw [pRxne_bits, pRxne_bits, hlow 6 (by decide)]

/-- Settles O19: values that differ in bits 8 to 11 alone agree in their low eight bits. -/
theorem waitsIgnoreErrorFlags : Obligations.WaitsIgnoreErrorFlags := by
  intro p P s1 s1' s2 hP h
  have hmask : ∀ k < 8, (~~~0x0F00#32).getLsbD k = true := by decide
  refine pollOf_congr hP (fun k hk => ?_) s2
  have hbit : (s1 &&& ~~~0x0F00#32).getLsbD k = (s1' &&& ~~~0x0F00#32).getLsbD k := by rw [h]
  rwa [BitVec.getLsbD_and, BitVec.getLsbD_and, hmask k hk, Bool.and_true, Bool.and_true] at hbit

/-- R150: the error check's code by its flags' bits. -/
theorem classify_bits (s1 : Word) :
    classify s1 =
      if s1.getLsbD 8 then .busError else if s1.getLsbD 10 then .acknowledgeFailure
      else if s1.getLsbD 9 then .arbitrationLost else if s1.getLsbD 11 then .overrun else .ok := by
  simp only [classify, flagSet_berr, flagSet_af, flagSet_arlo, flagSet_ovr]

/-- Settles O20: the number of the code in each case of the priority order. -/
theorem errorCheckPriority : Obligations.ErrorCheckPriority := by
  intro s1
  rw [classify_bits]
  simp only [apply_ite codeBits]
  rfl

end Sys2Proof.Machine

namespace Sys2Proof.Machine

/-! ## Poll iterations (R140, R149, R186) -/

/-- `poll_goto` with the two outcomes as states. -/
theorem poll_goto_ite (s : State) (P : Word → Word → Bool) (q : Phase) :
    s.poll P (fun t => t.goto q) =
      .next (if P s.snap1 s.snap2 then s.afterPoll q s.i else s.afterPoll s.pc s.i) := by
  rw [poll_goto]
  split <;> rfl

/-- R140: what a polling phase does with the snapshot it takes. -/
theorem phaseStep_poll {s : State} {P : Word → Word → Bool} (h : pollOf s.pc = some P) :
    ∃ (q : Phase) (k : Nat), q ≠ s.pc ∧
      phaseStep s = .next (if P s.snap1 s.snap2 then s.afterPoll q k else s.afterPoll s.pc s.i) := by
  cases hp : s.pc with
  | idle | s1 | o | c1 => simp [pollOf, hp] at h
  | w p =>
    cases p <;> simp only [pollOf, hp, Option.some.injEq, reduceCtorEq] at h
    case w5 =>
      subst h
      simp only [phaseStep, hp, writePhase, poll_startWriteData]
      exact ⟨_, _, by split <;> simp, rfl⟩
    all_goals
      subst h
      simp only [phaseStep, hp, writePhase, poll_goto_ite]
      exact ⟨_, _, by simp, rfl⟩
  | r p =>
    cases p <;> simp only [pollOf, hp, Option.some.injEq, reduceCtorEq] at h
    case r5 =>
      subst h
      simp only [phaseStep, hp, readPhase, poll_startReadData]
      exact ⟨_, _, by split <;> simp, rfl⟩
    all_goals
      subst h
      simp only [phaseStep, hp, readPhase, poll_goto_ite]
      exact ⟨_, _, by simp, rfl⟩

theorem pollOf_ne_idle {p : Phase} {P : Word → Word → Bool} (h : pollOf p = some P) : p ≠ .idle := by
  rintro rfl
  cases h

/-- Settles O21: the step is the phase, and the phase judges the snapshot it takes. -/
theorem pollIteration : Obligations.PollIteration := by
  intro s P hinv hr hP
  obtain ⟨q, k, hq, hs⟩ := phaseStep_poll (s := s.clockPin) hP
  rw [← step_eq_phaseStep hinv.1 hr (pollOf_ne_idle hP)] at hs
  refine ⟨fun hfail => hs.trans ?_, fun hpass => ⟨q, k, hq, hs.trans ?_⟩⟩
  · rw [if_neg (by simp [hfail])]
    rfl
  · rw [if_pos (by simp [hpass])]

/-- R186: a failed iteration over a snapshot written out. -/
theorem step_failedPoll {s : State} {P : Word → Word → Bool} {x : Snap} {more : List Answer} (hinv : s.Inv)
    (hr : s.resetPin = []) (hP : pollOf s.pc = some P) (hx : x.sat P = false) (ha : s.answers = x.answers ++ more) :
    ∃ env, step s = .next { s with
      env := env, answers := more, reads := s.reads + 2, trace := s.trace ++ x.events } := by
  obtain ⟨h1, h2⟩ := snap_half ha
  have hfail : P s.snap1 s.snap2 = false := by rw [h1, h2]; exact hx
  obtain ⟨hstay, -⟩ := pollIteration s P hinv (resetAsserted_of_empty hr) hP
  refine ⟨(s.env.set .star1 s.snap1).set .star2 s.snap2, (hstay hfail).trans ?_⟩
  rw [clockPin_of_empty hr, State.afterPoll, ha, h1, h2]
  rfl

/-- Settles O22: by induction on the failing snapshots; the state after each meets the invariant and the same
hypotheses. -/
theorem pollHangsWhileUnsatisfied : Obligations.PollHangsWhileUnsatisfied := by
  intro s P xs more hinv hr hP hxs ha
  induction xs generalizing s with
  | nil =>
    obtain rfl : s.answers = more := by simpa using ha
    exact ⟨s.env, by simp⟩
  | cons x xs ih =>
    obtain ⟨hx, hxs⟩ := List.forall_mem_cons.mp hxs
    rw [List.flatMap_cons, List.append_assoc] at ha
    obtain ⟨e, hstep⟩ := step_failedPoll hinv hr hP hx ha
    obtain ⟨env, hrun⟩ := ih _ (stepKeepsTheInvariant _ _ hinv hstep) hr hP hxs rfl
    refine ⟨env, (runFor_succ_of hstep).trans (hrun.trans ?_)⟩
    simp only [List.flatMap_cons, List.length_cons, List.append_assoc, Nat.mul_add, Nat.add_assoc,
      Nat.add_comm (2 * xs.length), Nat.mul_one]

end Sys2Proof.Machine

namespace Sys2Proof.Machine

/-! ## The address phases (R144, R148) -/

/-- R160, R170: a phase of a READ, as a command of its own and as the second half of a WRITE_READ, under any
parameters. -/
theorem execAt_readPhase {i : Instr} {a : BitVec 7} (hi : i = .read a ∨ i = .writeRead a) {s : State} {p : ReadPhase}
    (hp : s.pc = .r p) (cfg : Params) : execAt cfg i s = readPhase p s cfg := by
  rcases hi with rfl | rfl <;> simp only [execAt, execReadAt, execWriteReadAt, hp]

/-- Settles O26: the parameter is looked at by the predicate alone, so R5 is its poll with the predicate's bits. -/
theorem addressWaitUnderBothParameters : Obligations.AddressWaitUnderBothParameters := by
  intro b a i s hi hp
  have hpoll := poll_startReadData s (pMrms { params with readAddrWaitTxe := b })
  rw [pMrms_bits, hp] at hpoll
  rw [execAt_readPhase hi hp]
  exact hpoll

/-- R148: the address byte as a number. -/
theorem addressByte_toNat (a : BitVec 7) (d : BitVec 1) :
    (dataWord (addressByte a d)).toNat = 2 * a.toNat + d.toNat := by
  rw [dataWord, BitVec.toNat_setWidth_of_le (by decide), addressByte, BitVec.toNat_append,
    ← Nat.shiftLeft_add_eq_or_of_lt d.isLt, Nat.shiftLeft_eq, Nat.mul_comm]

/-- R155: W4 writes the address byte with the direction bit 0. -/
theorem exec_w4 {s : State} (hp : s.pc = .w .w4) (a : BitVec 7) :
    exec (.write a) s = .next ((s.writeReg .datar (dataWord (addressByte s.a7 0#1))).goto (.w .w5)) := by
  simp only [exec_eq_execAt, execAt, execWriteAt, hp, writePhase]

/-- R160: R4 writes the address byte with the direction bit 1. -/
theorem exec_r4 {s : State} (hp : s.pc = .r .r4) (a : BitVec 7) :
    exec (.read a) s = .next ((s.writeReg .datar (dataWord (addressByte s.a7 1#1))).goto (.r .r5)) := by
  rw [exec_eq_execAt, execAt_readPhase (.inl rfl) hp, readPhase]

/-- Settles O27: the byte's number, and the two phases that write it. -/
theorem addressByteValue : Obligations.AddressByteValue := by
  intro a
  have hw := addressByte_toNat a 0#1
  have hr := addressByte_toNat a 1#1
  refine ⟨hw, hr, fun s ha hp => ?_, fun s ha hp => ?_⟩
  · subst ha
    exact ⟨_, exec_w4 hp s.a7, _, rfl, hw⟩
  · subst ha
    exact ⟨_, exec_r4 hp s.a7, _, rfl, hr⟩

end Sys2Proof.Machine

namespace Sys2Proof.Machine

/-! ## Where each sequencer register is written (R21)

The register table row by row. The acceptances write by the command (`WrittenByAcceptanceOf`), the running phases by the
phase: some registers they never write (`Latched`), the others by one of the moves of `PhaseMove`. -/

/-- A register the port leaves as it is, beside its own list, the reset input and the mark of a refusal. -/
def IgnoresPort {α : Type} (f : State → α) : Prop :=
  ∀ (s : State) (q : List Command) (b : List Bool) (x : Bool), f { s with host := q, resetPin := b, refused := x } = f s

/-- Only the acceptances of the commands `ops` write `f`. -/
def WrittenByAcceptanceOf {α : Type} (ops : List Opcode) (f : State → α) : Prop :=
  ∀ (i : Instr) (o : Operands) (s : State), f (acceptance i o s) ≠ f s → i.opcode ∈ ops

/-- A step that is not the block's reset writes a register by an acceptance or in a running phase. -/
theorem register_written {α : Type} {f : State → α} {ops : List Opcode} (hport : IgnoresPort f)
    (hacc : WrittenByAcceptanceOf ops f) {s t : State} (hr : s.resetAsserted = false) (h : step s = .next t)
    (hne : f t ≠ f s) :
    acceptedIn s t ops ∨ (s.pc ≠ .idle ∧ phaseStep s.clockPin = .next t) := by
  rcases step_next h with ⟨hr', -⟩ | ⟨-, -, -, rfl⟩ | ⟨-, -, -, rfl⟩ | ⟨-, hp, c, rest, i, hh, hd, hc, rfl⟩ |
    ⟨-, hp, -, hs⟩
  · exact absurd (hr.symm.trans hr') Bool.false_ne_true
  · exact absurd (hport s s.host s.resetPin.tail s.refused) hne
  · exact absurd (hport s s.host.tail s.resetPin.tail true) hne
  · have htake : f s.clockPin.takeCommand = f s := hport s s.host.tail s.resetPin.tail s.refused
    exact .inl ⟨hp, c, i, by simp [hh], hd, hc, hacc i _ _ (htake ▸ hne), acceptance_op .., acceptance_pc ..⟩
  · exact .inr ⟨hp, hs⟩

/-! ### The registers no running phase writes -/

/-- The registers that a command's acceptance latches and its phases only read. -/
structure Latched where
  op      : Opcode
  a7      : BitVec 7
  wdata   : List Byte
  m       : Nat
  pclk    : Word
  speed   : Word
  dutySel : Duty
  remap   : BitVec 2

/-- Their values in `s`. -/
def State.latched (s : State) : Latched := ⟨s.op, s.a7, s.wdata, s.m, s.pclk, s.speed, s.dutySel, s.remap⟩

theorem phaseStep_latched {s t : State} (h : phaseStep s = .next t) : t.latched = s.latched := by
  by_cases hp : s.pc = .c1
  · rw [phaseStep_c1 hp h]
    rfl
  · rw [phaseStep_sameCommand hp h]
    rfl

/-- A register of these is written by an acceptance alone. -/
theorem latched_written {α : Type} (f : Latched → α) {ops : List Opcode}
    (hacc : WrittenByAcceptanceOf ops fun s => f s.latched) {s t : State} (hr : s.resetAsserted = false)
    (h : step s = .next t) (hne : f t.latched ≠ f s.latched) : acceptedIn s t ops :=
  (register_written (fun _ _ _ _ => rfl) hacc hr h hne).resolve_right fun ⟨_, hs⟩ =>
    hne (congrArg f (phaseStep_latched (s := s.clockPin) hs))

/-! ### The acceptances, register by register -/

theorem op_writtenByAcceptance :
    WrittenByAcceptanceOf [.resolve, .openEngine, .closeEngine, .write, .read, .writeRead] fun s => s.latched.op := by
  intro i o s _
  cases i <;> simp [Instr.opcode]

theorem a7_writtenByAcceptance : WrittenByAcceptanceOf [.write, .read, .writeRead] fun s => s.latched.a7 := by
  intro i o s hne
  cases i with
  | resolve | openEngine | closeEngine => exact absurd rfl hne
  | write | read | writeRead => simp [Instr.opcode]

theorem wdata_writtenByAcceptance : WrittenByAcceptanceOf [.write, .writeRead] fun s => s.latched.wdata := by
  intro i o s hne
  cases i with
  | resolve | openEngine | closeEngine | read => exact absurd rfl hne
  | write | writeRead => simp [Instr.opcode]

theorem m_writtenByAcceptance : WrittenByAcceptanceOf [.read, .writeRead] fun s => s.latched.m := by
  intro i o s hne
  cases i with
  | resolve | openEngine | closeEngine | write => exact absurd rfl hne
  | read | writeRead => simp [Instr.opcode]

theorem clock_writtenByAcceptance :
    WrittenByAcceptanceOf [.resolve, .openEngine] fun s => (s.latched.pclk, s.latched.speed, s.latched.dutySel) := by
  intro i o s hne
  cases i with
  | closeEngine | write | read | writeRead => exact absurd rfl hne
  | resolve | openEngine => simp [Instr.opcode]

theorem remap_writtenByAcceptance : WrittenByAcceptanceOf [.openEngine] fun s => s.latched.remap := by
  intro i o s hne
  cases i with
  | resolve | closeEngine | write | read | writeRead => exact absurd rfl hne
  | openEngine => simp [Instr.opcode]

theorem thenRead_writtenByAcceptance : WrittenByAcceptanceOf [.write, .read, .writeRead] State.thenRead := by
  intro i o s hne
  cases i with
  | resolve | openEngine | closeEngine => exact absurd rfl hne
  | write | read | writeRead => simp [Instr.opcode]

/-! ### The running phases, register by register -/

/-- The registers that running phases write, `pc` and `owned` apart. -/
structure Progress where
  i        : Nat
  thenRead : Bool
  timing   : Timing
  res      : ResultReg

/-- Their values in `s`. -/
def State.progress (s : State) : Progress := ⟨s.i, s.thenRead, s.timing, s.res⟩

/-- What a running phase does to them: at most one is written. -/
inductive PhaseMove (s t : State) : Prop
  /-- none is written -/
  | keeps (h : t.progress = s.progress)
  /-- R155, R160: the index at the start of the data and at each byte -/
  | moves (hp : s.pc = .w .w5 ∨ s.pc = .w .w6d ∨ s.pc = .r .r5 ∨ s.pc = .r .r6d)
      (h : t.progress = { s.progress with i := t.i })
  /-- R170: the read half of a WRITE_READ starts -/
  | startsRead (hp : s.pc = .w .w9) (ht : t.pc = .r .r1) (h : t.progress = { s.progress with thenRead := false })
  /-- R121: O9 resolves the timing -/
  | resolves (hp : s.pc = .o .o9) (h : t.progress = { s.progress with timing := t.timing })
  /-- R24: a command ends and posts its code -/
  | posts (c : ResultCode) (ht : t.pc = .idle)
      (h : t.progress = { s.progress with res := { s.res with done := true, code := c } })
  /-- R106: RESOLVE ends and posts the whole result -/
  | answers (hp : s.pc = .s1) (ht : t.pc = .idle) (h : t.progress = { s.progress with res := t.res })

theorem openPhase_move {s : State} {p : OpenPhase} (hp : s.pc = .o p) : PhaseMove s (openPhase p s) := by
  cases p
  case o9 => exact .resolves hp rfl
  case o11 => exact .posts .ok rfl rfl
  all_goals exact .keeps rfl

theorem endWrite_move {s : State} (hp : s.pc = .w .w9) : PhaseMove s s.endWrite := by
  rw [endWrite_eq_leaveCheck, State.leaveCheck]
  split
  · exact .startsRead hp rfl rfl
  · exact .posts _ rfl rfl

theorem writePhase_move {s t : State} {p : WritePhase} (hp : s.pc = .w p) (h : writePhase p s = .next t) :
    PhaseMove s t := by
  cases p <;> simp only [writePhase, poll_goto, poll_startWriteData] at h
  case w6d =>
    split at h <;> cases h
    exact .moves (by simp [hp]) rfl
  all_goals cases h
  case w5 => exact .moves (by simp [hp]) (by split <;> rfl)
  case w9 => exact endWrite_move hp
  all_goals exact .keeps rfl

theorem readPhase_move {s t : State} {p : ReadPhase} (hp : s.pc = .r p) (h : readPhase p s = .next t) :
    PhaseMove s t := by
  cases p <;> simp only [readPhase, poll_goto, poll_startReadData] at h
  case r6d =>
    split at h <;> cases h
    exact .moves (by simp [hp]) rfl
  all_goals cases h
  case r5 => exact .moves (by simp [hp]) (by split <;> rfl)
  case r8 => exact .posts _ rfl rfl
  all_goals exact .keeps rfl

theorem phaseStep_move {s t : State} (h : phaseStep s = .next t) : PhaseMove s t := by
  cases hp : s.pc <;> simp only [phaseStep, hp] at h
  case idle => cases h
  case s1 =>
    cases h
    exact .answers hp rfl rfl
  case o p =>
    cases h
    exact openPhase_move hp
  case c1 =>
    cases h
    exact .posts .ok rfl rfl
  case w p => exact writePhase_move hp h
  case r p => exact readPhase_move hp h

section
variable {s t : State} (h : PhaseMove s t)
include h

theorem phaseMove_i (hne : t.i ≠ s.i) : s.pc = .w .w5 ∨ s.pc = .w .w6d ∨ s.pc = .r .r5 ∨ s.pc = .r .r6d := by
  cases h with
  | moves hp => exact hp
  | keeps h | startsRead _ _ h | resolves _ h | posts _ _ h | answers _ _ h =>
    exact absurd (congrArg Progress.i h) hne

theorem phaseMove_thenRead (hne : t.thenRead ≠ s.thenRead) :
    s.pc = .w .w9 ∧ t.pc = .r .r1 ∧ t.thenRead = false := by
  cases h with
  | startsRead hp ht h => exact ⟨hp, ht, congrArg Progress.thenRead h⟩
  | keeps h | moves _ h | resolves _ h | posts _ _ h | answers _ _ h =>
    exact absurd (congrArg Progress.thenRead h) hne

theorem phaseMove_timing (hne : t.timing ≠ s.timing) : s.pc = .o .o9 := by
  cases h with
  | resolves hp => exact hp
  | keeps h | moves _ h | startsRead _ _ h | posts _ _ h | answers _ _ h =>
    exact absurd (congrArg Progress.timing h) hne

theorem phaseMove_res (hne : t.res ≠ s.res) : t.pc = .idle := by
  cases h with
  | posts _ ht | answers _ ht => exact ht
  | keeps h | moves _ h | startsRead _ _ h | resolves _ h => exact absurd (congrArg Progress.res h) hne

theorem phaseMove_resTiming (hne : (t.res.div, t.res.fs, t.res.duty) ≠ (s.res.div, s.res.fs, s.res.duty)) :
    s.pc = .s1 := by
  cases h with
  | answers hp => exact hp
  | keeps h | moves _ h | startsRead _ _ h | resolves _ h | posts _ _ h =>
    exact absurd (congrArg (fun x : Progress => (x.res.div, x.res.fs, x.res.duty)) h) hne

end

/-- The index, the timing and the result are written by no acceptance, so in running phases only. -/
theorem written_running {α : Type} (f : Nat → Timing → ResultReg → α) {s t : State} (hr : s.resetAsserted = false)
    (h : step s = .next t) (hne : f t.i t.timing t.res ≠ f s.i s.timing s.res) :
    s.pc ≠ .idle ∧ PhaseMove s.clockPin t := by
  have hacc : WrittenByAcceptanceOf [] fun u => f u.i u.timing u.res := by
    intro i o u hu
    cases i <;> exact absurd rfl hu
  rcases register_written (fun _ _ _ _ => rfl) hacc hr h hne with ⟨_, _, _, _, _, _, hmem, _⟩ | ⟨hp, hs⟩
  · cases hmem
  · exact ⟨hp, phaseStep_move hs⟩

/-- R155, R160, R170: `thenRead` is latched by the transactions and cleared where a read half starts. -/
theorem thenRead_written {s t : State} (hr : s.resetAsserted = false) (h : step s = .next t)
    (hne : t.thenRead ≠ s.thenRead) :
    acceptedIn s t [.write, .read, .writeRead] ∨ (s.pc = .w .w9 ∧ t.pc = .r .r1 ∧ t.thenRead = false) :=
  (register_written (fun _ _ _ _ => rfl) thenRead_writtenByAcceptance hr h hne).imp_right fun ⟨_, hs⟩ =>
    phaseMove_thenRead (s := s.clockPin) (phaseStep_move hs) hne

/-! ### The mark of a refusal -/

theorem acceptance_refused (i : Instr) (o : Operands) (s : State) : (acceptance i o s).refused = s.refused := by
  cases i <;> rfl

theorem phaseStep_refused {s t : State} (h : phaseStep s = .next t) : t.refused = s.refused := by
  by_cases hp : s.pc = .c1
  · rw [phaseStep_c1 hp h]
    rfl
  · rw [phaseStep_sameCommand hp h]

/-- R184: only a refusal writes the mark, and it sets it. -/
theorem refused_written {s t : State} (hr : s.resetAsserted = false) (h : step s = .next t)
    (hne : t.refused ≠ s.refused) : t.refused = true ∧ s.pc = .idle ∧ t.pc = .idle := by
  rcases step_next h with ⟨hr', -⟩ | ⟨-, -, -, rfl⟩ | ⟨-, hp, -, rfl⟩ | ⟨-, -, c, rest, i, -, -, -, rfl⟩ |
    ⟨-, -, -, hs⟩
  · exact absurd (hr.symm.trans hr') Bool.false_ne_true
  · exact absurd rfl hne
  · exact ⟨rfl, hp, hp⟩
  · exact absurd (acceptance_refused ..) hne
  · exact absurd (phaseStep_refused (s := s.clockPin) hs) hne

/-- R26: as `step_owned`, with the value written. -/
theorem owned_written {s t : State} (hr : s.resetAsserted = false) (h : step s = .next t) (hne : t.owned ≠ s.owned) :
    (acceptedIn s t [.openEngine] ∧ t.owned = true) ∨ (s.pc = .c1 ∧ t.pc = .idle ∧ t.owned = false) := by
  rcases (step_owned hr h).resolve_left hne with ha | ⟨hc, ht⟩
  · exact .inl ⟨ha, (acceptedIn_open_moves hr h ha).2⟩
  · exact .inr ⟨hc, ht, step_c1_owned hr hc h⟩

/-- Settles O43: row by row, an acceptance that writes the register or a running phase that does. -/
theorem registersWrittenOnlyWhereListed : Obligations.RegistersWrittenOnlyWhereListed := by
  intro s t hr h
  refine ⟨owned_written hr h, latched_written Latched.op op_writtenByAcceptance hr h,
    latched_written Latched.a7 a7_writtenByAcceptance hr h,
    latched_written Latched.wdata wdata_writtenByAcceptance hr h,
    latched_written Latched.m m_writtenByAcceptance hr h, fun hne => ?_, fun hne => ?_, fun hne => ?_,
    latched_written Latched.remap remap_writtenByAcceptance hr h, fun hne => ?_, fun hne => ?_, fun hne => ?_,
    refused_written hr h⟩
  · exact phaseMove_i (s := s.clockPin) (written_running (fun i _ _ => i) hr h hne).2 hne
  · exact thenRead_written hr h hne
  · exact latched_written (fun x => (x.pclk, x.speed, x.dutySel)) clock_writtenByAcceptance hr h
      (by simpa only [State.latched, ne_eq, Prod.mk.injEq, not_and_or] using hne)
  · exact phaseMove_timing (s := s.clockPin) (written_running (fun _ timing _ => timing) hr h hne).2 hne
  · obtain ⟨hp, hm⟩ := written_running (fun _ _ res => res) hr h hne
    exact ⟨phaseMove_res (s := s.clockPin) hm hne, hp⟩
  · have hne : (t.res.div, t.res.fs, t.res.duty) ≠ (s.res.div, s.res.fs, s.res.duty) := by
      simpa only [ne_eq, Prod.mk.injEq, not_and_or] using hne
    obtain ⟨-, hm⟩ := written_running (fun _ _ res => (res.div, res.fs, res.duty)) hr h hne
    exact phaseMove_resTiming (s := s.clockPin) hm hne

end Sys2Proof.Machine

namespace Sys2Proof.Machine

/-! ## The port's verdict and its effect (R184, R185) -/

theorem portRefusal_of_error {c : Command} {e : RefuseReason} (hd : decode c.word = .error e) (owned : Bool) :
    portRefusal c owned = some e := by
  rw [portRefusal, hd]

theorem portRefusal_of_ok {c : Command} {i : Instr} (hd : decode c.word = .ok i) (owned : Bool) :
    portRefusal c owned = refusalOf i owned c.operands := by
  rw [portRefusal, hd]

/-- R184: an admitted command is one that decodes and has no reason against it. -/
theorem portRefusal_eq_none (c : Command) (owned : Bool) :
    portRefusal c owned = none ↔ ∃ i, decode c.word = .ok i ∧ refusalOf i owned c.operands = none := by
  cases hd : decode c.word with
  | error e => simp [portRefusal_of_error hd]
  | ok i => simp [portRefusal_of_ok hd]

/-- R185, D22: the ownership check comes before the speed check, and no length is refused. -/
theorem refusalOf_eq (i : Instr) (owned : Bool) (o : Operands) :
    refusalOf i owned o =
      if !stateOk i owned then some .rfState else if !speedOk params i o then some .rfSpeed else none := by
  simp [refusalOf]

/-- R107: the speeds RESOLVE refuses. -/
theorem not_speedOk_resolve (d : Duty) (o : Operands) :
    (!speedOk params (.resolve d) o) = (decide (o.speed.toNat = 0) || decide (1000000 < o.speed.toNat)) := by
  rw [Bool.eq_iff_iff, Bool.not_eq_true', ← Bool.not_eq_true, speedOk_resolve, Bool.or_eq_true, decide_eq_true_eq,
    decide_eq_true_eq]
  omega

/-- R107: the speeds OPEN refuses. -/
theorem not_speedOk_open (r : BitVec 2) (d : Duty) (o : Operands) :
    (!speedOk params (.openEngine r d) o) = (decide (o.speed.toNat = 0) || decide (1000000 < o.speed.toNat)) :=
  not_speedOk_resolve d o

/-- R70: a step of an idle block with an admitted command at its port accepts it. -/
theorem step_admitted {s : State} {c : Command} {rest : List Command} (hr : s.resetAsserted = false)
    (hp : s.pc = .idle) (hh : s.host = c :: rest) (hc : portRefusal c s.owned = none) :
    ∃ i, step s = .next (acceptance i c.operands s.clockPin.takeCommand) := by
  obtain ⟨i, hd, hi⟩ := (portRefusal_eq_none c s.owned).mp hc
  exact ⟨i, step_accepted hr hp hh hd hi⟩

/-- Settles O49: `refusalOf` makes the ownership check and then the speed check, row by row; a step of the port is a
refusal or an acceptance. -/
theorem refusalsAndTheirOrder : Obligations.RefusalsAndTheirOrder := by
  refine ⟨fun c owned => ⟨fun e hd => portRefusal_of_error hd owned, fun i hd => ?_⟩,
    fun s c rest hr hp hh => ⟨fun hc => ?_, fun hc => ?_⟩⟩
  · rw [portRefusal_of_ok hd, refusalOf_eq]
    cases i with
    | resolve d => rw [not_speedOk_resolve]; rfl
    | openEngine r d => rw [not_speedOk_open, stateOk, Bool.not_not]
    | closeEngine | write | read | writeRead => rfl
  · rw [step_refused hr hp hh hc, refuse_eq (s := s.clockPin) hh]
    rfl
  · obtain ⟨i, hs⟩ := step_admitted hr hp hh hc
    exact ⟨_, hs, by simpa using firstPhase_ne_idle i.opcode, acceptance_refused ..⟩

end Sys2Proof.Machine

namespace Sys2Proof.Machine

/-! ## Every step answers (R180) -/

/-- R22, R70, R184: an idle block always has a step: it waits, refuses or accepts. -/
theorem step_idle_answers {s : State} (hr : s.resetAsserted = false) (hp : s.pc = .idle) : ∃ t, step s = .next t := by
  cases hh : s.host with
  | nil => exact ⟨_, step_waits hr hp hh⟩
  | cons c rest =>
    by_cases hc : portRefusal c s.owned = none
    · obtain ⟨i, hs⟩ := step_admitted hr hp hh hc
      exact ⟨_, hs⟩
    · exact ⟨_, step_refused hr hp hh hc⟩

/-- Settles O59: only a running phase could stop, and under the invariant none does. -/
theorem noStepEverStops : Obligations.NoStepEverStops := by
  intro s hinv
  cases hr : s.resetAsserted with
  | true => exact ⟨_, step_reset hr⟩
  | false =>
    by_cases hp : s.pc = .idle
    · exact step_idle_answers hr hp
    · rw [step_eq_phaseStep hinv.1 hr hp]
      exact phaseStep_answers (s := s.clockPin) hinv.1 hp

end Sys2Proof.Machine

namespace Sys2Proof.Machine

/-! ## What the host sees (R24, R60, R190) -/

/-- R60: while a command runs the host sees nothing. -/
theorem hostSees_running {s : State} (hp : s.pc ≠ .idle) : s.hostSees = none :=
  if_neg fun h => hp h.1

/-- R190: at IDLE the host sees a posted result, and RBUF if the command returns it. -/
theorem hostSees_posted {s : State} (hp : s.pc = .idle) (hd : s.res.done = true) :
    s.hostSees = some ⟨s.res, if s.op = .read ∨ s.op = .writeRead then some s.rbuf else none⟩ :=
  if_pos ⟨hp, hd⟩

/-- The phases that end a command and post its result (R106, R121, R126, R155, R160). -/
def IsLastPhase (p : Phase) : Prop := p = .s1 ∨ p = .o .o11 ∨ p = .c1 ∨ p = .w .w9 ∨ p = .r .r8

/-- What a step from `s` that ends the running command leaves in `t`: its phase is a last one and posts the result. -/
def Posts (s t : State) : Prop := IsLastPhase s.pc ∧ t.res = postedResult s

theorem postedResult_done (s : State) : (postedResult s).done = true := by
  unfold postedResult
  split <;> rfl

/-- R24: every last phase but S1 posts its code and leaves the timing of the result. -/
theorem posts_code {s t : State} (hlast : IsLastPhase s.pc) (hs1 : s.pc ≠ .s1)
    (hres : t.res = { s.res with done := true, code := postedCode s }) : Posts s t :=
  ⟨hlast, hres.trans (if_neg hs1).symm⟩

/-- The posted code where the phase makes no check: OK. -/
theorem postedCode_ok {s : State} (hw : s.pc ≠ .w .w9) (hr : s.pc ≠ .r .r8) : postedCode s = .ok := by
  unfold postedCode
  split
  · exact absurd ‹_› hw
  · exact absurd ‹_› hr
  · rfl

/-- The posted code after `CheckError`: that of its STAR1 read. -/
theorem postedCode_check {s : State} (h : s.pc = .w .w9 ∨ s.pc = .r .r8) :
    postedCode s = classify (s.answer .star1) := by
  unfold postedCode
  rcases h with h | h <;> rw [h]

/-- A phase that chooses between two others, as a poll and a data byte do, does not end the command. -/
theorem ite_ne_idle {b : Prop} [Decidable b] {p q : Phase} (hp : p ≠ .idle) (hq : q ≠ .idle) :
    (if b then p else q) ≠ .idle := by
  split <;> assumption

theorem openPhase_posts {s : State} {p : OpenPhase} (hp : s.pc = .o p) (ht : (openPhase p s).pc = .idle) :
    Posts s (openPhase p s) := by
  cases p
  case o11 =>
    refine posts_code (by simp [IsLastPhase, hp]) (by simp [hp]) ?_
    rw [postedCode_ok (by simp [hp]) (by simp [hp])]
    rfl
  all_goals cases ht

/-- R155, R170: a WRITE ends in W9 only, and there only without a read half to follow. -/
theorem writePhase_posts {s t : State} {p : WritePhase} (hp : s.pc = .w p) (h : writePhase p s = .next t)
    (ht : t.pc = .idle) : Posts s t := by
  cases p <;> simp only [writePhase, poll_goto, poll_startWriteData, hp] at h
  case w6d =>
    split at h <;> cases h
    exact absurd ht (ite_ne_idle (by simp) (by simp))
  all_goals cases h
  case w1 | w3 | w6t | w7 => exact absurd ht (ite_ne_idle (by simp) (by simp))
  case w2 | w4 | w8 => cases ht
  case w5 =>
    split at ht
    · exact absurd ht (ite_ne_idle (by simp) (by simp))
    · cases ht
  case w9 =>
    refine posts_code (by simp [IsLastPhase, hp]) (by simp [hp]) ?_
    rw [postedCode_check (.inl hp)]
    rw [endWrite_eq_leaveCheck, State.leaveCheck] at ht ⊢
    split at ht
    · cases ht
    · rw [if_neg ‹_›]
      rfl

/-- R160: a READ ends in R8 only. -/
theorem readPhase_posts {s t : State} {p : ReadPhase} (hp : s.pc = .r p) (h : readPhase p s = .next t)
    (ht : t.pc = .idle) : Posts s t := by
  cases p <;> simp only [readPhase, poll_goto, poll_startReadData, hp] at h
  case r6d =>
    split at h <;> cases h
    exact absurd ht (ite_ne_idle (by simp) (by simp))
  all_goals cases h
  case r1 | r3 | r6r => exact absurd ht (ite_ne_idle (by simp) (by simp))
  case r2 | r4 | r7 => cases ht
  case r5 =>
    split at ht
    · exact absurd ht (ite_ne_idle (by simp) (by simp))
    · cases ht
  case r8 =>
    refine posts_code (by simp [IsLastPhase, hp]) (by simp [hp]) ?_
    rw [postedCode_check (.inr hp)]
    rfl

/-- R24: a running phase that returns to IDLE is a last one and posts the result. -/
theorem phaseStep_posts {s t : State} (h : phaseStep s = .next t) (ht : t.pc = .idle) : Posts s t := by
  cases hp : s.pc <;> simp only [phaseStep, hp] at h
  case idle => cases h
  case s1 =>
    cases h
    exact ⟨.inl hp, (if_pos hp).symm⟩
  case o p =>
    cases h
    exact openPhase_posts hp ht
  case c1 =>
    cases h
    refine posts_code (by simp [IsLastPhase, hp]) (by simp [hp]) ?_
    rw [postedCode_ok (by simp [hp]) (by simp [hp])]
    rfl
  case w p => exact writePhase_posts hp h ht
  case r p => exact readPhase_posts hp h ht

/-- R52: R6D, the only phase that writes RBUF, ends no command. -/
theorem phaseStep_posts_rbuf {s t : State} (h : phaseStep s = .next t) (ht : t.pc = .idle) : t.rbuf = s.rbuf := by
  refine (phaseStep_rbuf h).resolve_right ?_
  rintro ⟨hp, -, -⟩
  obtain ⟨hlast, -⟩ := phaseStep_posts h ht
  simp [IsLastPhase, hp] at hlast

/-- R52, R172: RBUF returns from R8, and from W9 if its command is a WRITE_READ; no other last phase is one of a READ or
a WRITE_READ. -/
theorem returnsBuffer_iff {op : Opcode} {p : Phase} (hruns : runsPhase op p = true) (hlast : IsLastPhase p) :
    (op = .read ∨ op = .writeRead) ↔ (p = .r .r8 ∨ (p = .w .w9 ∧ op = .writeRead)) := by
  cases op with
  | resolve | openEngine | closeEngine | write =>
    refine ⟨by simp, ?_⟩
    rintro (rfl | ⟨-, h⟩)
    · cases hruns
    · cases h
  | read =>
    obtain rfl | rfl | rfl | rfl | rfl := hlast
    case inr.inr.inr.inr => simp
    all_goals cases hruns
  | writeRead =>
    obtain rfl | rfl | rfl | rfl | rfl := hlast
    case inr.inr.inr.inl | inr.inr.inr.inr => simp
    all_goals cases hruns

/-- R190: what the host sees when a running phase has ended its command. -/
theorem hostSees_of_posts {s t : State} (hruns : runsPhase s.op s.pc = true) (h : phaseStep s = .next t)
    (ht : t.pc = .idle) :
    t.hostSees = some ⟨postedResult s,
      if s.pc = .r .r8 ∨ (s.pc = .w .w9 ∧ s.op = .writeRead) then some s.rbuf else none⟩ := by
  obtain ⟨hlast, hres⟩ := phaseStep_posts h ht
  have hop : t.op = s.op := congrArg Latched.op (phaseStep_latched h)
  rw [hostSees_posted ht (hres ▸ postedResult_done s), hres, hop, phaseStep_posts_rbuf h ht]
  simp only [returnsBuffer_iff hruns hlast]

/-- R190: a step from IDLE to IDLE, a refusal or a wait, writes nothing the host sees. -/
theorem step_idle_hostSees {s t : State} (hr : s.resetAsserted = false) (h : step s = .next t) (hp : s.pc = .idle)
    (ht : t.pc = .idle) : t.hostSees = s.hostSees := by
  rcases step_next h with ⟨hr', -⟩ | ⟨-, -, -, rfl⟩ | ⟨-, -, -, rfl⟩ | ⟨-, -, c, rest, i, -, -, -, rfl⟩ |
    ⟨-, hp', -⟩
  · exact absurd (hr.symm.trans hr') Bool.false_ne_true
  · rfl
  · rfl
  · exact absurd ht (by simpa using firstPhase_ne_idle i.opcode)
  · exact absurd hp hp'

/-- Settles O46: the last step of a command is a phase that posts; the steps that stay at IDLE write no result, and the
block's reset takes the posted one back. -/
theorem hostSeesOnlyPostedResults : Obligations.HostSeesOnlyPostedResults := by
  intro s t h
  refine ⟨fun hr => ⟨hostSees_running, hostSees_running, fun hp ht => ?_, step_idle_hostSees hr h⟩, fun hr => ?_⟩
  · rw [step_busy hr hp] at h
    obtain ⟨hruns, hs⟩ := (exec_next_iff (s := s.clockPin) hp).mp h
    exact hostSees_of_posts (s := s.clockPin) (by simpa using hruns) hs ht
  · obtain rfl : s.clockPin.blockReset = t := by simpa [step_reset hr] using h
    rfl

end Sys2Proof.Machine

namespace Sys2Proof.Machine

/-! ## No access overtakes its poll (R156, R157, R216) -/

/-- R216: the phases that a poll must open: those that write a data byte, request STOP for a WRITE, or read DATAR. -/
def isGuarded : Phase → Bool
  | .w .w6d | .w .w8 | .r .r6d => true
  | _ => false

/-- A move of `pc` that respects the guards, by the phase before, the status values that phase would read, and the phase
after. -/
inductive GuardedMove : Phase → Word → Word → Phase → Prop
  | afterTxe {s1 s2} (h : pTxe params s1 s2 = true) : GuardedMove (.w .w6t) s1 s2 (.w .w6d)
  | afterBtf {s1 s2} (h : pBtf params s1 s2 = true) : GuardedMove (.w .w7) s1 s2 (.w .w8)
  | afterRxne {s1 s2} (h : pRxne params s1 s2 = true) : GuardedMove (.r .r6r) s1 s2 (.r .r6d)
  | unguarded {p s1 s2 q} (h : isGuarded q = false) : GuardedMove p s1 s2 q

/-- The state `t` is entered from `s` by a move that respects the guards. -/
def State.MovesGuarded (s t : State) : Prop := GuardedMove s.pc s.snap1 s.snap2 t.pc

/-- A choice between two moves respects the guards if each does where it is taken. -/
theorem guardedMove_ite {b : Prop} [Decidable b] {p q q' : Phase} {s1 s2 : Word} (h : b → GuardedMove p s1 s2 q)
    (h' : ¬b → GuardedMove p s1 s2 q') : GuardedMove p s1 s2 (if b then q else q') := by
  split
  · exact h ‹_›
  · exact h' ‹_›

/-- A choice between two unguarded phases. -/
theorem guardedMove_ite_unguarded {b : Prop} [Decidable b] {p q q' : Phase} {s1 s2 : Word} (h : isGuarded q = false)
    (h' : isGuarded q' = false) : GuardedMove p s1 s2 (if b then q else q') :=
  guardedMove_ite (fun _ => .unguarded h) (fun _ => .unguarded h')

/-- R155, R156, R157: of the phases of a WRITE only W6T and W7 open a guarded one, and only when their polls pass. -/
theorem writePhase_movesGuarded {p : WritePhase} {s t : State} (hp : s.pc = .w p) (h : writePhase p s = .next t) :
    s.MovesGuarded t := by
  unfold State.MovesGuarded
  cases p <;> simp only [writePhase, poll_goto, poll_startWriteData, hp] at h ⊢
  case w6d =>
    split at h <;> cases h
    exact guardedMove_ite_unguarded rfl rfl
  all_goals cases h
  case w1 | w3 => exact guardedMove_ite_unguarded rfl rfl
  case w2 | w4 | w8 => exact .unguarded rfl
  case w5 =>
    rw [apply_ite State.pc]
    exact guardedMove_ite (fun _ => guardedMove_ite_unguarded rfl rfl) (fun _ => .unguarded rfl)
  case w6t => exact guardedMove_ite .afterTxe (fun _ => .unguarded rfl)
  case w7 => exact guardedMove_ite .afterBtf (fun _ => .unguarded rfl)
  case w9 =>
    unfold State.endWrite
    rw [apply_ite State.pc]
    exact guardedMove_ite_unguarded rfl rfl

/-- R160, R216: of the phases of a READ only R6R opens a guarded one, and only when its poll passes. -/
theorem readPhase_movesGuarded {p : ReadPhase} {s t : State} (hp : s.pc = .r p) (h : readPhase p s = .next t) :
    s.MovesGuarded t := by
  unfold State.MovesGuarded
  cases p <;> simp only [readPhase, poll_goto, poll_startReadData, hp] at h ⊢
  case r6d =>
    split at h <;> cases h
    exact guardedMove_ite_unguarded rfl rfl
  all_goals cases h
  case r1 | r3 => exact guardedMove_ite_unguarded rfl rfl
  case r2 | r4 | r7 | r8 => exact .unguarded rfl
  case r5 =>
    rw [apply_ite State.pc]
    exact guardedMove_ite (fun _ => guardedMove_ite_unguarded rfl rfl) (fun _ => .unguarded rfl)
  case r6r => exact guardedMove_ite .afterRxne (fun _ => .unguarded rfl)

theorem phaseStep_movesGuarded {s t : State} (h : phaseStep s = .next t) : s.MovesGuarded t := by
  cases hp : s.pc <;> simp only [phaseStep, hp] at h
  case idle => cases h
  case s1 | c1 =>
    cases h
    exact .unguarded rfl
  case o p =>
    cases h
    exact .unguarded (by cases p <;> rfl)
  case w p => exact writePhase_movesGuarded hp h
  case r p => exact readPhase_movesGuarded hp h

/-- A command starts at an unguarded phase. -/
theorem isGuarded_firstPhase (x : Opcode) : isGuarded (firstPhase x) = false := by
  cases x <;> rfl

/-- R216: every step respects the guards: one that is not a phase leaves the block at IDLE or at a command's first
phase. -/
theorem step_movesGuarded {s t : State} (h : step s = .next t) : s.MovesGuarded t := by
  rcases step_next h with ⟨-, rfl⟩ | ⟨-, hp, -, rfl⟩ | ⟨-, hp, -, rfl⟩ | ⟨-, -, c, rest, i, -, -, -, rfl⟩ |
    ⟨-, -, -, hs⟩
  · exact .unguarded rfl
  · exact .unguarded (congrArg isGuarded hp)
  · exact .unguarded (congrArg isGuarded hp)
  · exact .unguarded (by rw [acceptance_pc, isGuarded_firstPhase])
  · exact phaseStep_movesGuarded (s := s.clockPin) hs

/-- R155, R160: W4, W6D and R4 alone write DATAR, and R6D alone reads it. -/
theorem phaseEvents_datar (s : State) :
    (∀ v, .wr .datar v ∈ phaseEvents s → s.pc = .w .w4 ∨ s.pc = .w .w6d ∨ s.pc = .r .r4) ∧
    (∀ v, .rd .datar v ∈ phaseEvents s → s.pc = .r .r6d) := by
  cases hp : s.pc with
  | idle | s1 => simp [phaseEvents, hp]
  | o p =>
    have hreg : .datar ≠ openReg p := by cases p <;> decide
    simp [phaseEvents, hp, rmwEvents, hreg]
  | c1 => simp [phaseEvents, hp, rmwEvents]
  | w p => cases p <;> simp [phaseEvents, hp, rmwEvents, snapEvents]
  | r p => cases p <;> simp [phaseEvents, hp, rmwEvents, snapEvents]

/-- What a step records, its phase does. -/
theorem mem_phaseEvents_of_mem_stepEvents {s : State} {e : Event} (h : e ∈ stepEvents s) : e ∈ phaseEvents s := by
  unfold stepEvents at h
  split at h
  · cases h
  · exact h

/-- Settles O34: every step's move of `pc` respects the guards, with the polls' predicates by their bits, and only the
listed phases access DATAR. -/
theorem noAccessOvertakesItsPoll : Obligations.NoAccessOvertakesItsPoll := by
  intro s t _ _ h
  have hmove : GuardedMove s.pc s.snap1 s.snap2 t.pc := step_movesGuarded h
  refine ⟨fun ht => ?_, fun ht => ?_, fun ht => ?_, fun ev he => ?_⟩
  · rw [ht] at hmove
    generalize s.pc = p at hmove ⊢
    cases hmove with
    | afterTxe hP => exact ⟨rfl, by rwa [pTxe_bits] at hP⟩
    | unguarded hq => cases hq
  · rw [ht] at hmove
    generalize s.pc = p at hmove ⊢
    cases hmove with
    | afterBtf hP => exact ⟨rfl, by simpa only [pBtf_bits, Bool.and_eq_true, and_assoc] using hP⟩
    | unguarded hq => cases hq
  · rw [ht] at hmove
    generalize s.pc = p at hmove ⊢
    cases hmove with
    | afterRxne hP => exact ⟨rfl, by simpa only [pRxne_bits, Bool.and_eq_true, and_assoc] using hP⟩
    | unguarded hq => cases hq
  · obtain rfl : ev = stepEvents s := List.append_cancel_left (he.symm.trans (step_appends h))
    obtain ⟨hwr, hrd⟩ := phaseEvents_datar s
    exact ⟨fun ⟨v, hv⟩ => hwr v (mem_phaseEvents_of_mem_stepEvents hv),
      fun ⟨v, hv⟩ => hrd v (mem_phaseEvents_of_mem_stepEvents hv)⟩

end Sys2Proof.Machine

namespace Sys2Proof.Machine

/-! ## What the resolver can hold (R108) -/

theorem divFactor_bounds (speed : Word) (d : Duty) :
    2 ≤ divFactor params speed d ∧ divFactor params speed d ≤ 25 := by
  unfold divFactor
  split <;> decide

/-- Settles O7: the factor is 2, 3 or 25 and the clock at most 36 MHz, so no quantity passes 32 bits. -/
theorem resolverNeverOverflows : Obligations.ResolverNeverOverflows := by
  intro pclk speed d hlo hhi
  obtain ⟨hfactorLo, hfactorHi⟩ := divFactor_bounds speed d
  obtain ⟨-, hclk⟩ := clampedClock_bounds pclk
  have hden : 2 * 1 ≤ divFactor params speed d * speed.toNat := Nat.mul_le_mul hfactorLo hlo
  refine ⟨hden, Nat.mul_le_mul hfactorHi hhi, Nat.div_le_div hclk hden (by decide), ?_⟩
  exact divider_toNat (by omega) (hclk.trans_lt (by decide))

end Sys2Proof.Machine

namespace Sys2Proof.Machine

/-! ## RESOLVE (R106) -/

/-- R106: the one phase of RESOLVE, whatever its selection. -/
theorem exec_s1 {s : State} (hp : s.pc = .s1) (d : Duty) :
    exec (.resolve d) s = .next (s.postTiming (resolveTiming params s.pclk s.speed s.dutySel)) := by
  rw [exec_next_iff (by simp [hp]), hp]
  exact ⟨rfl, by rw [phaseStep, hp]⟩

/-- Settles O9: the speed check alone decides at IDLE, and S1 posts the timing it resolves. -/
theorem resolveAcceptedAndPosted : Obligations.ResolveAcceptedAndPosted := by
  refine fun d s => ⟨fun c rest hp hh hlo hhi => ?_, fun hp => exec_s1 hp d⟩
  exact exec_accepted_eq hp hh ((resolve_admitted ..).mpr ⟨hlo, hhi⟩)

/-- R70: a run from an idle block whose port holds the word of an admitted command goes on from its acceptance. -/
theorem runFor_accepted {s : State} {i : Instr} {o : Operands} {rest : List Command} (hr : s.resetPin = [])
    (hp : s.pc = .idle) (hh : s.host = ⟨encode i, o⟩ :: rest) (hc : refusalOf i s.owned o = none) (k : Nat) :
    runFor (k + 1) s = runFor k (acceptance i o (s.withHost rest)) := by
  have hexec := exec_accepted_eq hp hh hc
  have hstep := step_port (resetAsserted_of_empty hr) hp hh ((decodeAndEncodeAgree (encode i) i).mpr rfl)
  rw [clockPin_of_empty hr, hexec] at hstep
  exact runFor_succ_of hstep

/-- R106: the step of S1. -/
theorem step_s1 {s : State} (hr : s.resetPin = []) (hp : s.pc = .s1) (ho : s.op = .resolve) :
    step s = .next (s.postTiming (resolveTiming params s.pclk s.speed s.dutySel)) := by
  have hcurrent : s.current = .resolve s.dutySel := by rw [State.current, ho]
  rw [step_busy (resetAsserted_of_empty hr) (by simp [hp]), clockPin_of_empty hr, hcurrent, exec_s1 hp]

/-- Settles O10: the acceptance latches the operands S1 resolves. -/
theorem resolveCompletes : Obligations.ResolveCompletes := by
  intro d o rest s hr hp hh hlo hhi
  have hs1 := step_s1 (s := acceptance (.resolve d) o (s.withHost rest)) hr rfl rfl
  rw [runFor_accepted hr hp hh ((resolve_admitted ..).mpr ⟨hlo, hhi⟩), runFor_succ_of hs1, runFor_zero, hp]
  rfl

end Sys2Proof.Machine

namespace Sys2Proof.Machine

/-! ## The phases of the transactions written out (R155, R160, R170) -/

/-- R155, R160, R170: with the resources held a transaction is admitted. -/
theorem transaction_admitted {i : Instr} (hi : i.opcode = .write ∨ i.opcode = .read ∨ i.opcode = .writeRead)
    {owned : Bool} (ho : owned = true) (o : Operands) : refusalOf i owned o = none := by
  refine (owned_admitted ?_ ?_ owned o).mpr ho <;> rcases hi with hi | hi | hi <;> simp [hi]

/-- Settles O23: with the resources held each transaction is admitted, and latches what its acceptance names. -/
theorem transactionsAccepted : Obligations.TransactionsAccepted := by
  intro a s c rest hp ho hh
  exact ⟨exec_accepted_eq hp hh (transaction_admitted (.inl rfl) ho _),
    exec_accepted_eq hp hh (transaction_admitted (.inr (.inl rfl)) ho _),
    exec_accepted_eq hp hh (transaction_admitted (.inr (.inr rfl)) ho _)⟩

section
variable {s : State} {P : Word → Word → Bool} {p : Phase}

/-- `poll_goto` where the polling phase is known. -/
theorem poll_goto_at (hp : s.pc = p) (q : Phase) :
    s.poll P (fun t => t.goto q) = .next (s.afterPoll (if P s.snap1 s.snap2 then q else p) s.i) :=
  hp ▸ poll_goto s P q

theorem poll_startWriteData_at (hp : s.pc = p) :
    s.poll P State.startWriteData =
      .next (if P s.snap1 s.snap2 then s.afterPoll (if 0 < s.wdata.length then .w .w6t else .w .w7) 0
        else s.afterPoll p s.i) :=
  hp ▸ poll_startWriteData s P

theorem poll_startReadData_at (hp : s.pc = p) :
    s.poll P State.startReadData =
      .next (if P s.snap1 s.snap2 then s.afterPoll (if 0 < s.m then .r .r6r else .r .r7) 0
        else s.afterPoll p s.i) :=
  hp ▸ poll_startReadData s P

end

/-- R155, R170: a phase of a WRITE, as a command of its own and as the first half of a WRITE_READ. -/
theorem exec_writePhase {i : Instr} {a : BitVec 7} (hi : i = .write a ∨ i = .writeRead a) {s : State}
    {p : WritePhase} (hp : s.pc = .w p) : exec i s = writePhase p s := by
  rw [exec_eq_execAt]
  rcases hi with rfl | rfl <;> simp only [execAt, execWriteAt, execWriteReadAt, hp]

/-- R160, R170: the same of a READ. -/
theorem exec_readPhase {i : Instr} {a : BitVec 7} (hi : i = .read a ∨ i = .writeRead a) {s : State} {p : ReadPhase}
    (hp : s.pc = .r p) : exec i s = readPhase p s :=
  (exec_eq_execAt i s).trans (execAt_readPhase hi hp params)

/-- R155, R170, R172: what W9 leaves. -/
theorem endWrite_eq (s : State) :
    s.endWrite =
      if s.thenRead = true ∧ classify (s.answer .star1) = .ok then
        { s.afterStar1 (.r .r1) with thenRead := false }
      else { s.afterStar1 .idle with res := { s.res with done := true, code := classify (s.answer .star1) } } := rfl

/-- Settles O24: each phase is a poll, a read-modify-write, a byte to DATAR or the error check. -/
theorem writePhases : Obligations.WritePhases := by
  intro a i s hi
  have hphase {p : WritePhase} (hp : s.pc = .w p) := exec_writePhase hi hp
  refine ⟨fun hp => ?_, fun hp => ?_, fun hp => ?_, fun hp => ?_, fun hp => ?_, fun hp => ?_, fun b hp hb => ?_,
    fun hp => ?_, fun hp => ?_, fun hp => ?_⟩ <;> rw [hphase hp]
  · exact poll_goto_at hp _
  · exact congrArg _ (modifyReg_goto ..)
  · exact poll_goto_at hp _
  · rfl
  · exact poll_startWriteData_at hp
  · exact poll_goto_at hp _
  · have hb : s.wbufByte s.i = some b := hb
    simp only [writePhase, hb]
    rfl
  · exact poll_goto_at hp _
  · exact congrArg _ (modifyReg_goto ..)
  · rw [writePhase, endWrite_eq]

/-- R160: what R6D leaves. -/
theorem takeByte_eq (s : State) :
    s.takeByte = { s with
      env := s.env.set .datar (s.answer .datar)
      answers := s.answers.tail
      reads := s.reads + 1
      rbuf := s.rbuf.set s.i ((s.answer .datar).setWidth 8)
      trace := s.trace ++ [.rd .datar (s.answer .datar), .hb s.i ((s.answer .datar).setWidth 8)]
      i := s.i + 1
      pc := if s.i + 1 < s.m then .r .r6r else .r .r7 } := by
  rw [List.append_cons]
  rfl

/-- Settles O25: as for the WRITE; R6D puts what DATAR answers into its slot. -/
theorem readPhases : Obligations.ReadPhases := by
  intro a i s hi
  have hphase {p : ReadPhase} (hp : s.pc = .r p) := exec_readPhase hi hp
  refine ⟨fun hp => ?_, fun hp => ?_, fun hp => ?_, fun hp => ?_, fun hp => ?_, fun hp => ?_, fun hp hlt => ?_,
    fun hp => ?_, fun hp => ?_⟩ <;> rw [hphase hp]
  · exact poll_goto_at hp _
  · exact congrArg _ (modifyReg_goto ..)
  · exact poll_goto_at hp _
  · rfl
  · exact poll_startReadData_at hp
  · exact poll_goto_at hp _
  · rw [readPhase, if_pos hlt, takeByte_eq]
  · exact congrArg _ (modifyReg_goto ..)
  · rfl

end Sys2Proof.Machine

namespace Sys2Proof.Machine

/-! ## The transition table (R175) -/

/-- R22, R184: where the port refuses a command, or none stands there, an idle block stays at IDLE. -/
theorem nextPhase_refused {s : State} {c : Command} {rest : List Command} (hp : s.pc = .idle)
    (hh : s.host = c :: rest) (hc : portRefusal c s.owned ≠ none) : nextPhase s = .idle := by
  cases hd : decode c.word with
  | error e => simp only [nextPhase, hp, hh, hd]
  | ok i =>
    rw [portRefusal_of_ok hd] at hc
    simp only [nextPhase, hp, hh, hd, if_neg hc]

theorem nextPhase_accepted {s : State} {c : Command} {rest : List Command} {i : Instr} (hp : s.pc = .idle)
    (hh : s.host = c :: rest) (hd : decode c.word = .ok i) (hc : refusalOf i s.owned c.operands = none) :
    nextPhase s = firstPhase i.opcode := by
  simp only [nextPhase, hp, hh, hd, if_pos hc]

/-- The table asks whether the data is used up where the machine asks whether there is more. -/
theorem ite_eq_ite_not {α : Type} {b c : Prop} [Decidable b] [Decidable c] (h : b ↔ ¬c) (x y : α) :
    (if b then x else y) = if c then y else x := by
  simp only [h, ite_not]

theorem writePhase_nextPhase {p : WritePhase} {s t : State} (hp : s.pc = .w p) (hi : s.writeIndexOk p)
    (h : writePhase p s = .next t) : t.pc = nextPhase s := by
  cases p <;> simp only [writePhase, poll_goto_at hp, poll_startWriteData_at hp] at h
  case w6d =>
    split at h <;> cases h
    simp only [nextPhase, hp]
    exact ite_eq_ite_not (Nat.lt_iff_le_and_ne.trans (and_iff_right (Nat.succ_le_of_lt hi))) ..
  all_goals
    cases h
    simp only [nextPhase, hp]
  case w5 =>
    rw [apply_ite State.pc]
    rw [← ite_eq_ite_not List.length_pos_iff]
    rfl
  case w9 => exact apply_ite State.pc ..
  all_goals rfl

theorem readPhase_nextPhase {p : ReadPhase} {s t : State} (hp : s.pc = .r p) (hi : s.readIndexOk p)
    (h : readPhase p s = .next t) : t.pc = nextPhase s := by
  cases p <;> simp only [readPhase, poll_goto_at hp, poll_startReadData_at hp] at h
  case r6d =>
    split at h <;> cases h
    simp only [nextPhase, hp]
    exact ite_eq_ite_not (Nat.lt_iff_le_and_ne.trans (and_iff_right (Nat.succ_le_of_lt hi))) ..
  all_goals
    cases h
    simp only [nextPhase, hp]
  case r5 =>
    rw [apply_ite State.pc]
    rw [← ite_eq_ite_not Nat.pos_iff_ne_zero]
    rfl
  all_goals rfl

/-- R121: the table's rows of OPEN. -/
theorem openPhase_nextPhase {p : OpenPhase} {s : State} (hp : s.pc = .o p) : (openPhase p s).pc = nextPhase s := by
  cases p <;> simp only [nextPhase, hp] <;> rfl

theorem phaseStep_nextPhase {s t : State} (hinv : s.phaseOk) (h : phaseStep s = .next t) : t.pc = nextPhase s := by
  cases hp : s.pc <;> simp only [phaseStep, hp] at h
  case idle => cases h
  case s1 | c1 =>
    cases h
    simp only [nextPhase, hp]
    rfl
  case o p =>
    cases h
    exact openPhase_nextPhase hp
  case w p => exact writePhase_nextPhase hp ((phaseOk_w hp).mp hinv).2 h
  case r p => exact readPhase_nextPhase hp ((phaseOk_r hp).mp hinv).2 h

/-- Settles O36: the rows of IDLE by what the port does, the others by the running phase; the invariant is needed where
an index reaches its bound. -/
theorem transitionTable : Obligations.TransitionTable := by
  intro s t hinv hr h
  rcases step_next h with ⟨hr', -⟩ | ⟨-, hp, hh, rfl⟩ | ⟨-, hp, ⟨c, rest, hh, hc⟩, rfl⟩ |
    ⟨-, hp, c, rest, i, hh, hd, hc, rfl⟩ | ⟨-, -, -, hs⟩
  · exact absurd (hr.symm.trans hr') Bool.false_ne_true
  · simp [nextPhase, hp, hh]
  · exact hp.trans (nextPhase_refused hp hh hc).symm
  · exact (acceptance_pc ..).trans (nextPhase_accepted hp hh hd hc).symm
  · exact phaseStep_nextPhase (s := s.clockPin) hinv.1 hs

end Sys2Proof.Machine

namespace Sys2Proof.Machine

/-! ## Reset (R200, R201) -/

/-- Settles O50: the asserted step is the block's reset. -/
theorem blockReset : Obligations.BlockReset := by
  intro s later hpin
  have hr : s.resetAsserted = true := by simp [State.resetAsserted, hpin]
  obtain rfl : s.resetPin.tail = later := by rw [hpin]; rfl
  exact step_reset hr

/-- R129: of the commands only RESOLVE and OPEN pass the ownership check of an unowned block. -/
theorem stateOk_unowned {i : Instr} (h : stateOk i false = true) : i.opcode = .resolve ∨ i.opcode = .openEngine := by
  cases i with
  | resolve d => exact .inl rfl
  | openEngine r d => exact .inr rfl
  | closeEngine | write | read | writeRead => cases h

/-- Settles O51: the reset leaves an unowned idle block, and such a block leaves IDLE by an acceptance only. -/
theorem onlyResolveAndOpenAfterReset : Obligations.OnlyResolveAndOpenAfterReset := by
  intro s t u hrs hs hrt ht hu
  obtain rfl : s.clockPin.blockReset = t := by simpa [step_reset hrs] using hs
  have hidle : s.clockPin.blockReset.pc = .idle := rfl
  rcases step_next ht with ⟨hr', -⟩ | ⟨-, hp, -, rfl⟩ | ⟨-, hp, -, rfl⟩ | ⟨-, -, c, rest, i, -, -, hc, rfl⟩ |
    ⟨-, hp, -⟩
  · exact absurd (hrt.symm.trans hr') Bool.false_ne_true
  · exact absurd hp hu
  · exact absurd hp hu
  · obtain ⟨hstate, -⟩ := (refusalOf_eq_none ..).mp hc
    rw [acceptance_pc, acceptance_op, acceptance_owned]
    rcases stateOk_unowned hstate with hi | hi <;> simp [hi, firstPhase]
  · exact absurd hidle hp

theorem envZero_get (r : Reg) : EnvRegs.zero.get r = 0 := by
  cases r <;> rfl

theorem fits_zero (r : Reg) : fits r 0 := BitVec.zero_and

/-- Settles O58: at reset the block is idle, every register holds 0, and nothing is recorded or posted. -/
theorem resetMeetsTheInvariant : Obligations.ResetMeetsTheInvariant := by
  refine ⟨phaseOk_of_idle rfl, fun r => ?_, List.forall_mem_nil _, fun _ => rfl⟩
  change fits r (EnvRegs.zero.get r)
  rw [envZero_get]
  exact fits_zero r

end Sys2Proof.Machine

namespace Sys2Proof.Machine

/-! ## Runs of OPEN (R121, R122, R128)

An OPEN is the list `openOrder` of phases, none of which polls: its run is the fold of `openPhase` over the list, and
its trace is two events for each phase, given by what the reads answer (`openReads`, `openEvents`). -/

/-- R121: the phases of OPEN in their order. -/
def openOrder : List OpenPhase := [.o1, .o2, .o3, .o4, .o5, .o6, .o7, .o8, .o9, .o10, .o11]

/-- Each phase of the list moves `pc` to the one after it. -/
def ConsecutivePhases (ps : List OpenPhase) : Prop := ps.IsChain fun p q => p.next = .o q

theorem consecutivePhases_openOrder : ConsecutivePhases openOrder := by
  simp [ConsecutivePhases, openOrder, OpenPhase.next]

/-- `s` after these phases of OPEN. -/
def State.afterPhases (s : State) (ps : List OpenPhase) : State := ps.foldl (fun u p => openPhase p u) s

/-- What the reads of these phases of OPEN answer from `s` on. -/
def State.openReads (s : State) : List OpenPhase → List Word
  | [] => []
  | p :: ps => s.answer (openReg p) :: (openPhase p s).openReads ps

/-- The events of these phases of OPEN under the operands latched in `s`, when their reads answer `vs`. -/
def State.openEvents (s : State) (ps : List OpenPhase) (vs : List Word) : List Event :=
  (ps.zip vs).flatMap fun x => [.rd (openReg x.1) x.2, .wr (openReg x.1) (openValue s x.1 x.2)]

theorem openPhase_pc (p : OpenPhase) (s : State) : (openPhase p s).pc = p.next := by
  rw [openPhase_eq]
  rfl

theorem openPhase_answers (p : OpenPhase) (s : State) : (openPhase p s).answers = s.answers.tail := by
  rw [openPhase_eq]
  rfl

theorem openPhase_trace (p : OpenPhase) (s : State) :
    (openPhase p s).trace = s.trace ++ rmwEvents s (openReg p) (openValue s p) := by
  rw [openPhase_eq]
  rfl

/-- R121: what the phases of OPEN write depends on the latched operands alone, which they keep. -/
theorem openValue_openPhase (p q : OpenPhase) (s : State) : openValue (openPhase p s) q = openValue s q := by
  rw [openPhase_sameCommand p s]
  cases q <;> rfl

theorem openEvents_openPhase (p : OpenPhase) (s : State) (ps : List OpenPhase) (vs : List Word) :
    (openPhase p s).openEvents ps vs = s.openEvents ps vs := by
  simp only [State.openEvents, openValue_openPhase]

/-- R122: the phases follow one another, a step each. -/
theorem runFor_openPhases {ps : List OpenPhase} {s : State} (hps : ConsecutivePhases ps) (hr : s.resetPin = [])
    (ho : s.op = .openEngine) (hp : ∀ p ∈ ps.head?, s.pc = .o p) :
    runFor ps.length s = .next (s.afterPhases ps) := by
  induction ps generalizing s with
  | nil => rfl
  | cons p ps ih =>
    obtain ⟨hhead, htail⟩ := List.isChain_cons.mp hps
    rw [List.length_cons, runFor_succ_of (step_openPhase hr (hp p rfl) ho)]
    refine ih htail ?_ ?_ fun q hq => (openPhase_pc p s).trans (hhead q hq)
    · rw [openPhase_sameCommand p s]
      exact hr
    · rw [openPhase_sameCommand p s]
      exact ho

/-- R121: each phase records its read and its write. -/
theorem afterPhases_trace (ps : List OpenPhase) (s : State) :
    (s.afterPhases ps).trace = s.trace ++ s.openEvents ps (s.openReads ps) := by
  induction ps generalizing s with
  | nil => exact (List.append_nil _).symm
  | cons p ps ih =>
    rw [State.afterPhases, List.foldl_cons, ← State.afterPhases, ih, openPhase_trace, openEvents_openPhase,
      List.append_assoc]
    rfl

/-- R33: answers written as values are read cut to their registers' widths. -/
theorem openReads_values {ps : List OpenPhase} {vs : List Word} {more : List Answer} {s : State}
    (hlen : vs.length = ps.length) (ha : s.answers = vs.map .value ++ more) :
    s.openReads ps = List.zipWith (fun p v => v &&& widthMask (openReg p)) ps vs := by
  induction ps generalizing s vs with
  | nil => rfl
  | cons p ps ih =>
    obtain ⟨v, vs, rfl⟩ := List.exists_cons_of_length_eq_add_one hlen
    have htail : (openPhase p s).answers = vs.map .value ++ more := by
      rw [openPhase_answers, ha]
      rfl
    rw [State.openReads, answer_value ha, ih (Nat.succ.inj hlen) htail, List.zipWith_cons_cons]

/-- R128: what the phases record over answers written as values. -/
theorem afterPhases_trace_values {ps : List OpenPhase} {vs : List Word} {more : List Answer} {s : State}
    (hlen : vs.length = ps.length) (ha : s.answers = vs.map .value ++ more) :
    (s.afterPhases ps).trace =
      s.trace ++ s.openEvents ps (List.zipWith (fun p v => v &&& widthMask (openReg p)) ps vs) := by
  rw [afterPhases_trace, openReads_values hlen ha]

/-- R122: an admitted OPEN at the port of an idle block runs through its phases. -/
theorem open_runs {r : BitVec 2} {d : Duty} {o : Operands} {rest : List Command} {s : State} (hr : s.resetPin = [])
    (hp : s.pc = .idle) (ho : s.owned = false) (hh : s.host = ⟨encode (.openEngine r d), o⟩ :: rest)
    (hlo : 1 ≤ o.speed.toNat) (hhi : o.speed.toNat ≤ 1000000) :
    runFor 12 s = .next ((acceptance (.openEngine r d) o (s.withHost rest)).afterPhases openOrder) := by
  rw [runFor_accepted hr hp hh ((open_admitted ..).mpr ⟨ho, hlo, hhi⟩)]
  exact runFor_openPhases consecutivePhases_openOrder hr rfl (by simp [openOrder, firstPhase, Instr.opcode])

/-- Settles O13: the values read are those of `openReads`, and the eleven phases keep or write the registers as they
stand. -/
theorem openCompletes : Obligations.OpenCompletes := by
  intro r d o rest s hr hp ho hh hlo hhi
  have htrace := afterPhases_trace openOrder (acceptance (.openEngine r d) o (s.withHost rest))
  exact ⟨_, _, _, _, _, _, _, _, _, _, _, _, open_runs hr hp ho hh hlo hhi,
    rfl, rfl, rfl, rfl, rfl, rfl, rfl, rfl, rfl, rfl, rfl, rfl, rfl, rfl, rfl, rfl, rfl, htrace⟩

/-- Settles O15: the acceptances latch the same operands and the reads answer the same values, so the events are those
of one list. -/
theorem equalOpensRecordEqualTraces : Obligations.EqualOpensRecordEqualTraces := by
  intro r d o rest rest' s s' vs more more' hr hp ho hh hr' hp' ho' hh' hlo hhi hlen ha ha'
  have htrace := afterPhases_trace_values (ps := openOrder)
    (s := acceptance (.openEngine r d) o (s.withHost rest)) hlen ha
  have htrace' := afterPhases_trace_values (ps := openOrder)
    (s := acceptance (.openEngine r d) o (s'.withHost rest')) hlen ha'
  exact ⟨_, _, _, open_runs hr hp ho hh hlo hhi, open_runs hr' hp' ho' hh' hlo hhi, rfl, rfl, htrace, htrace'⟩

end Sys2Proof.Machine

namespace Sys2Proof.Machine

/-! ## Runs of a READ over answers written out (R160)

As for the WRITE: each part of the script leads from one place of the transaction to the next. -/

/-- A byte stored in the next slot follows the ones before it. -/
theorem take_set_succ {α : Type} {k : Nat} {l : List α} (h : k < l.length) (x : α) :
    (l.set k x).take (k + 1) = l.take k ++ [x] := by
  rw [List.take_add_one, List.take_set_of_le (Nat.le_refl k), List.getElem?_set_self h]
  rfl

/-- What the environment answers for a byte: the poll before it, and DATAR. -/
def byteAnswers (d : PollScript × BitVec 16) : List Answer := d.1.answers ++ [half d.2]

/-- What the poll before a byte and the byte's transfer to its slot record. -/
def slotEvents (d : (PollScript × BitVec 16) × Nat) : List Event :=
  d.1.1.events ++ [.rd .datar (d.1.2.setWidth 32), .hb d.2 (d.1.2.setWidth 8)]

/-- Where a READ stands before byte `k`, or after the last. -/
def State.beforeReadByte (s : State) (k : Nat) (b : List Byte) : Place := ⟨if k < s.m then .r .r6r else .r .r7, k, b⟩

section
variable {s : State} (hr : s.resetPin = []) (ho : s.op = .read ∨ s.op = .writeRead)
include hr ho

/-- A step in a phase of the transaction. -/
theorem step_during_read (p : ReadPhase) (e : EnvRegs) (a : List Answer) (n : Nat) (tr : List Event) (i : Nat)
    (b : List Byte) : step (s.during e a n tr i (.r p) b) = readPhase p (s.during e a n tr i (.r p) b) :=
  step_readPhase (s := s.during e a n tr i (.r p) b) hr rfl ho

/-- The polls that move on by `pc` alone. -/
theorem covers_readPoll {p : ReadPhase} {q : Phase} {P : Word → Word → Bool} {c : PollScript} (hc : c.exits P)
    (i : Nat) (b : List Byte) (hw : ∀ u : State, readPhase p u = u.poll P (fun t => t.goto q)) :
    s.Covers ⟨.r p, i, b⟩ c.steps c.answers c.events ⟨q, i, b⟩ :=
  covers_poll hc fun e a n tr => read_poll_step s hr ho hw e a n tr i b

/-- R5 moves on to the data. -/
theorem covers_r5 {c : PollScript} (hc : c.exits (pMrms params)) (i : Nat) (b : List Byte) :
    s.Covers ⟨.r .r5, i, b⟩ c.steps c.answers c.events (s.beforeReadByte 0 b) := by
  refine covers_poll hc fun e a n tr => ?_
  rw [step_during_read hr ho]
  exact poll_startReadData ..

/-- R2 and R7. -/
theorem covers_readSetBits {p : ReadPhase} {q : Phase} {k : Word} (v : BitVec 16) (i : Nat) (b : List Byte)
    (hw : ∀ u : State, readPhase p u = .next ((u.setBits .ctlr1 k).goto q)) :
    s.Covers ⟨.r p, i, b⟩ 1 [half v] [.rd .ctlr1 (v.setWidth 32), .wr .ctlr1 (v.setWidth 32 ||| k)] ⟨q, i, b⟩ :=
  covers_modifyReg (f := fun w => w ||| k) v fun _ _ _ _ => (step_during_read hr ho ..).trans (hw _)

theorem covers_r4 (i : Nat) (b : List Byte) :
    s.Covers ⟨.r .r4, i, b⟩ 1 [] [.wr .datar ((s.a7 ++ 1#1).setWidth 32)] ⟨.r .r5, i, b⟩ :=
  covers_step fun _ _ _ _ => ⟨_, step_during_read hr ho ..⟩

omit hr ho in
/-- R6D over an answer written out. -/
theorem takeByte_during_half (e : EnvRegs) (v : BitVec 16) (more : List Answer) (n : Nat) (tr : List Event) (k : Nat)
    (p : Phase) (b : List Byte) :
    (s.during e (half v :: more) n tr k p b).takeByte =
      s.standAt (s.beforeReadByte (k + 1) (b.set k (v.setWidth 8))) (e.set .datar (v.setWidth 32)) more (n + 1)
        (tr ++ [.rd .datar (v.setWidth 32), .hb k (v.setWidth 8)]) := by
  have ha : (s.during e (half v :: more) n tr k p b).answer .datar = v.setWidth 32 := answer_half rfl .datar
  rw [takeByte_eq, ha, BitVec.setWidth_setWidth_of_le v (by decide)]
  rfl

/-- R6D puts the low byte of what DATAR reads into its slot. -/
theorem covers_r6d {k : Nat} {b : List Byte} (hk : k < b.length) (v : BitVec 16) :
    s.Covers ⟨.r .r6d, k, b⟩ 1 [half v] [.rd .datar (v.setWidth 32), .hb k (v.setWidth 8)]
      (s.beforeReadByte (k + 1) (b.set k (v.setWidth 8))) :=
  covers_step fun e n tr more => ⟨_, (step_during_read hr ho ..).trans
    ((if_pos hk).trans (congrArg _ (takeByte_during_half e v more n tr k _ b)))⟩

/-- The data bytes from `k` on, each after its poll: the slots below `k` stay as they are. -/
theorem covers_readBytes (ds : List (PollScript × BitVec 16)) (hds : ∀ d ∈ ds, d.1.exits (pRxne params)) (k : Nat)
    (b : List Byte) (hb : b.length = s.m) (hk : k + ds.length = s.m) :
    s.Covers (s.beforeReadByte k b) ((ds.map fun d => d.1.steps).sum + ds.length) (ds.flatMap byteAnswers)
      ((ds.zipIdx k).flatMap slotEvents) ⟨.r .r7, s.m, b.take k ++ ds.map fun d => d.2.setWidth 8⟩ := by
  induction ds generalizing k b with
  | nil =>
    obtain rfl : k = s.m := hk
    have hplace : s.beforeReadByte s.m b = ⟨.r .r7, s.m, b⟩ := by simp [State.beforeReadByte]
    have htake : b.take s.m = b := by rw [← hb, List.take_length]
    simp only [hplace, htake, List.map_nil, List.append_nil]
    exact covers_refl
  | cons d ds ih =>
    rw [List.length_cons] at hk
    have hlt : k < s.m := by omega
    have hplace : s.beforeReadByte k b = ⟨.r .r6r, k, b⟩ := by simp [State.beforeReadByte, hlt]
    have hpoll : s.Covers ⟨.r .r6r, k, b⟩ d.1.steps d.1.answers d.1.events ⟨.r .r6d, k, b⟩ :=
      covers_readPoll hr ho (hds d (by simp)) k b fun _ => rfl
    have hbyte := covers_r6d hr ho (hb ▸ hlt) d.2
    have hrest := ih (fun c hc => hds c (by simp [hc])) (k + 1) (b.set k (d.2.setWidth 8))
      (by rw [List.length_set, hb]) (by omega)
    have hall := covers_trans (covers_trans hpoll hbyte) hrest
    have htake := take_set_succ (hb ▸ hlt : k < b.length) (d.2.setWidth 8)
    have hsteps : d.1.steps + 1 + ((ds.map fun d => d.1.steps).sum + ds.length) =
        ((d :: ds).map fun d => d.1.steps).sum + (d :: ds).length := by
      simp only [List.map_cons, List.sum_cons, List.length_cons]
      omega
    rw [hplace, ← hsteps, List.flatMap_cons, List.zipIdx_cons, List.flatMap_cons, List.map_cons, List.append_cons,
      ← htake]
    exact hall

/-- R160: the polls, writes and bytes of a READ up to its error check, over a script whose polls exit. -/
theorem read_covers_check {x : ReadScript} (hx : x.exits s.m) (i : Nat) {b : List Byte} (hb : b.length = s.m) :
    ∃ k a ev, x.steps = k + 1 ∧ x.answers = a ++ [half x.e8] ∧
      x.events s.a7 = ev ++ [.rd .star1 (x.e8.setWidth 32)] ∧
      s.Covers ⟨.r .r1, i, b⟩ k a ev ⟨.r .r8, s.m, x.bytes⟩ := by
  obtain ⟨h1, h3, h5, hlen, hdata⟩ := hx
  have hr1 := covers_readPoll (p := .r1) hr ho h1 i b fun _ => rfl
  have hr2 := covers_readSetBits (p := .r2) hr ho x.v2 i b fun _ => rfl
  have hr3 := covers_readPoll (p := .r3) hr ho h3 i b fun _ => rfl
  have hr4 := covers_r4 hr ho i b
  have hr5 := covers_r5 hr ho h5 i b
  have hr6 := covers_readBytes hr ho x.data hdata 0 b hb (by omega)
  have hr7 := covers_readSetBits (p := .r7) hr ho x.v7 s.m x.bytes fun _ => rfl
  have hstart := covers_trans (covers_trans (covers_trans hr1 hr2) hr3) hr4
  refine ⟨_, _, _, ?_, ?_, ?_, covers_trans (covers_trans (covers_trans hstart hr5) hr6) hr7⟩
  · simp only [ReadScript.steps]
    omega
  · have hbytes : (fun d : PollScript × BitVec 16 => d.1.answers ++ [half d.2]) = byteAnswers := rfl
    simp [ReadScript.answers, hbytes]
  · have hbytes : (fun d : (PollScript × BitVec 16) × Nat =>
        d.1.1.events ++ [.rd .datar (d.1.2.setWidth 32), .hb d.2 (d.1.2.setWidth 8)]) = slotEvents := rfl
    simp [ReadScript.events, startMask_eq, stopMask_eq, hbytes]

/-- R160, R170: a READ over a script whose polls exit fills RBUF and posts the code of its error check. -/
theorem read_runs {x : ReadScript} (hx : x.exits s.m) (i : Nat) {b : List Byte} (hb : b.length = s.m) (e : EnvRegs)
    (n : Nat) (tr : List Event) (more : List Answer) : ∃ e',
    runFor x.steps (s.during e (x.answers ++ more) n tr i (.r .r1) b) = .next
      ((s.during e' more (n + x.answers.length) (tr ++ x.events s.a7) s.m (.r .r8) x.bytes).post
        (classify (x.e8.setWidth 32))) := by
  obtain ⟨k, a, ev, hsteps, hanswers, hevents, hrun⟩ := read_covers_check hr ho hx i hb
  obtain ⟨e₁, hrun⟩ := hrun e n tr (half x.e8 :: more)
  have hr8 := step_during_read hr ho .r8 e₁ (half x.e8 :: more) (n + a.length) (tr ++ ev) s.m x.bytes
  rw [readPhase, State.afterCheck, answer_half rfl, readReg_during_half] at hr8
  refine ⟨e₁.set .star1 (x.e8.setWidth 32), ?_⟩
  rw [hsteps, hanswers, hevents, List.append_assoc, List.length_append, ← Nat.add_assoc, ← List.append_assoc tr]
  exact (runFor_add hrun).trans (runFor_succ_of hr8)

end

/-! ### How many events a script gives (R176) -/

theorem pollEvents_length (c : PollScript) : c.events.length = 2 * c.fails.length + 2 := by
  have hfails : (c.fails.flatMap Snap.events).length = 2 * c.fails.length := by
    simp [List.length_flatMap, Snap.events, Nat.mul_comm]
  rw [PollScript.events, List.length_append, hfails]
  rfl

/-- A fixed number of events for each byte, and two for each failed iteration of the poll before it. -/
theorem flatMap_events_length {α β : Type} {l : List (α × β)} {ds : List α} (hl : l.map Prod.fst = ds)
    {events : α × β → List Event} {failed : α → Nat} {c : Nat}
    (h : ∀ d, (events d).length = 2 * failed d.1 + c) :
    (l.flatMap events).length = c * ds.length + 2 * (ds.map failed).sum := by
  subst hl
  induction l with
  | nil => simp
  | cons d l ih =>
    simp only [List.flatMap_cons, List.length_append, h, ih, List.map_cons, List.sum_cons, List.length_cons]
    ring

theorem writeEvents_length {x : WriteScript} {bytes : List Byte} (h : x.data.length = bytes.length) (a7 : BitVec 7) :
    (x.events a7 bytes).length = 14 + 3 * bytes.length + 2 * x.failed := by
  have hdata := flatMap_events_length (List.map_fst_zip h.le) (failed := fun d => d.fails.length) (c := 3)
    (events := fun d : PollScript × Byte => d.1.events ++ [.wr .datar (d.2.setWidth 32)])
    fun d => by simp [pollEvents_length]
  simp only [WriteScript.events, WriteScript.failed, List.length_append, List.length_cons, List.length_nil,
    pollEvents_length, hdata]
  omega

theorem readEvents_length (x : ReadScript) (a7 : BitVec 7) :
    (x.events a7).length = 12 + 4 * x.data.length + 2 * x.failed := by
  have hdata := flatMap_events_length (List.zipIdx_map_fst 0 x.data) (failed := fun d => d.1.fails.length) (c := 4)
    (events := fun d => d.1.1.events ++ [.rd .datar (d.1.2.setWidth 32), .hb d.2 (d.1.2.setWidth 8)])
    fun d => by simp [pollEvents_length]
  simp only [ReadScript.events, ReadScript.failed, List.length_append, List.length_cons, List.length_nil,
    pollEvents_length, hdata]
  omega

theorem writeExits_data_length {x : WriteScript} {n : Nat} (h : x.exits n) : x.data.length = n := by
  obtain ⟨-, -, -, hlen, -⟩ := h
  exact hlen

theorem readExits_data_length {x : ReadScript} {n : Nat} (h : x.exits n) : x.data.length = n := by
  obtain ⟨-, -, -, hlen, -⟩ := h
  exact hlen

/-! ### The three transactions from the port to IDLE -/

/-- R155, R172: the error check of a WRITE of its own posts its code, whatever it is. -/
theorem leaveCheck_write {s : State} (h : s.thenRead = false) (c : ResultCode) : s.leaveCheck c = s.post c :=
  if_neg fun hc => Bool.false_ne_true (h.symm.trans hc.1)

/-- R170: on OK the error check of a WRITE_READ's write half starts the read half. -/
theorem leaveCheck_writeRead {s : State} (h : s.thenRead = true) :
    s.leaveCheck .ok = { s with thenRead := false, pc := .r .r1 } :=
  if_pos ⟨h, rfl⟩

/-- Settles O28: the acceptance leaves the state at W1 with `thenRead` clear, so the check's code is posted. -/
theorem writeRunsToItsEnd : Obligations.WriteRunsToItsEnd := by
  intro a o rest x more s hr hp howned hh hx ha
  refine ⟨?_, writeEvents_length (writeExits_data_length hx) a⟩
  obtain ⟨e', hrun⟩ := write_runs (s := acceptance (.write a) o (s.withHost rest)) hr (.inl rfl) s.rbuf hx s.i s.env
    s.reads s.trace more
  rw [leaveCheck_write rfl, ← ha] at hrun
  refine ⟨e', (runFor_accepted hr hp hh (transaction_admitted (.inl rfl) howned o) _).trans (hrun.trans ?_)⟩
  rw [hp]
  rfl

/-- Settles O29: the acceptance leaves the state at R1 with the host's buffer, which the bytes read replace. -/
theorem readRunsToItsEnd : Obligations.ReadRunsToItsEnd := by
  intro a o rest x more s hr hp howned hh hx ha
  refine ⟨?_, readExits_data_length hx ▸ readEvents_length x a⟩
  obtain ⟨e', hrun⟩ := read_runs (s := acceptance (.read a) o (s.withHost rest)) hr (.inl rfl) hx s.i rfl s.env s.reads
    s.trace more
  rw [← ha] at hrun
  refine ⟨e', (runFor_accepted hr hp hh (transaction_admitted (.inr (.inl rfl)) howned o) _).trans (hrun.trans ?_)⟩
  rw [hp]
  rfl

/-- Settles O31: the write half leaves its check at R1, with the registers the read half needs as the acceptance latched
them. -/
theorem writeReadRunsBothHalves : Obligations.WriteReadRunsBothHalves := by
  intro a o rest x y more s hr hp howned hh hx hcode hy ha
  obtain ⟨e₁, hwrite⟩ := write_runs (s := acceptance (.writeRead a) o (s.withHost rest)) hr (.inr rfl) o.rbuf hx s.i
    s.env s.reads s.trace (y.answers ++ more)
  rw [hcode, leaveCheck_writeRead rfl, ← List.append_assoc, ← ha] at hwrite
  obtain ⟨e₂, hread⟩ := read_runs (s := { acceptance (.writeRead a) o (s.withHost rest) with thenRead := false }) hr
    (.inr rfl) hy o.wdata.length rfl e₁ (s.reads + x.answers.length) (s.trace ++ x.events a o.wdata) more
  refine ⟨e₂, (runFor_accepted hr hp hh (transaction_admitted (.inr (.inr rfl)) howned o) _).trans
    ((runFor_add hwrite).trans (hread.trans ?_))⟩
  rw [hp]
  rfl

end Sys2Proof.Machine

namespace Sys2Proof.Machine

/-! ## The shape of a completed transaction (R159, R163, R164)

For any environment: what a transaction has written and read so far is a function of its phase and index, which every
step keeps. `run_to_end` is the induction over the run. -/

/-- What holds of a run's states and of the events recorded since it began, when every busy step keeps it. -/
theorem run_to_end {J : State → List Event → Prop}
    (hkeeps : ∀ u v ev, J u ev → u.pc ≠ .idle → step u = .next v → J v (ev ++ stepEvents u)) {k : Nat} {s t : State}
    {ev : List Event} (hs : J s ev) (hbusy : ∀ j < k, ∀ u, runFor j s = .next u → u.pc ≠ .idle)
    (hrun : runFor k s = .next t) : ∃ ev', t.trace = s.trace ++ ev' ∧ J t (ev ++ ev') := by
  induction k generalizing s ev with
  | zero =>
    cases hrun
    exact ⟨[], by simp, by simpa using hs⟩
  | succ k ih =>
    obtain ⟨u, hstep, hrun⟩ := runFor_succ_next hrun
    have hu := hkeeps s u ev hs (hbusy 0 k.succ_pos s rfl) hstep
    obtain ⟨ev', htrace, ht⟩ := ih hu
      (fun j hj w hw => hbusy (j + 1) (Nat.succ_lt_succ hj) w ((runFor_succ_of hstep).trans hw)) hrun
    refine ⟨stepEvents s ++ ev', ?_, ?_⟩
    · rw [htrace, step_appends hstep, List.append_assoc]
    · rwa [← List.append_assoc]

/-- A state of a run without resets, with the registers `x` latched. -/
structure State.RunsOn (u : State) (x : Latched) : Prop where
  inv     : u.Inv
  noReset : u.resetPin = []
  latched : u.latched = x

theorem phaseStep_resetPin {s t : State} (h : phaseStep s = .next t) : t.resetPin = s.resetPin := by
  by_cases hp : s.pc = .c1
  · rw [phaseStep_c1 hp h]
    rfl
  · rw [phaseStep_sameCommand hp h]

/-- A busy step of such a run is the running phase, and the run goes on. -/
theorem runsOn_step {u v : State} {x : Latched} (h : u.RunsOn x) (hp : u.pc ≠ .idle) (hs : step u = .next v) :
    v.RunsOn x ∧ phaseStep u = .next v ∧ stepEvents u = phaseEvents u := by
  obtain ⟨hinv, hpin, hlatched⟩ := h
  have hr := resetAsserted_of_empty hpin
  have hphase : phaseStep u = .next v := by
    rw [← hs, step_eq_phaseStep hinv.1 hr hp, clockPin_of_empty hpin]
  refine ⟨⟨stepKeepsTheInvariant u v hinv hs, ?_, ?_⟩, hphase, ?_⟩
  · rw [phaseStep_resetPin hphase, hpin]
  · rw [phaseStep_latched hphase, hlatched]
  · simp [stepEvents, hr, hp]

theorem writesIn_append (es es' : List Event) : writesIn (es ++ es') = writesIn es ++ writesIn es' :=
  List.filter_append ..

theorem dataReadsIn_append (es es' : List Event) : dataReadsIn (es ++ es') = dataReadsIn es ++ dataReadsIn es' :=
  List.filter_append ..

theorem writesIn_snapEvents (s : State) : writesIn (snapEvents s) = [] := rfl

theorem writesIn_rmwEvents (s : State) (r : Reg) (f : Word → Word) :
    writesIn (rmwEvents s r f) = [.wr r (f (s.answer r))] := rfl

theorem writesIn_read (r : Reg) (v : Word) : writesIn [.rd r v] = [] := rfl

theorem writesIn_slot (v : Word) (k : Nat) (b : Byte) : writesIn [.rd .datar v, .hb k b] = [] := rfl

theorem dataReadsIn_snapEvents (s : State) : dataReadsIn (snapEvents s) = [] := rfl

theorem dataReadsIn_rmwEvents_ctlr1 (s : State) (f : Word → Word) : dataReadsIn (rmwEvents s .ctlr1 f) = [] := rfl

theorem dataReadsIn_write (r : Reg) (v : Word) : dataReadsIn [.wr r v] = [] := rfl

theorem dataReadsIn_star1 (v : Word) : dataReadsIn [.rd .star1 v] = [] := rfl

theorem dataReadsIn_slot (v : Word) (k : Nat) (b : Byte) : dataReadsIn [.rd .datar v, .hb k b] = [.rd .datar v] := rfl

/-- START on what CTLR1 read, and the address byte with the direction bit (R159, R163). -/
def addressWrites (a7 : BitVec 7) (rw : BitVec 1) (v2 : Word) : List Event :=
  [.wr .ctlr1 (v2 ||| 0x0100#32), .wr .datar ((a7 ++ rw).setWidth 32)]

/-! ### The writes of a WRITE (R159) -/

/-- What a WRITE of `bytes` to `a7` has written where it stands at a phase with index `i`. -/
def WroteSoFar (a7 : BitVec 7) (bytes : List Byte) (i : Nat) (ws : List Event) : Phase → Prop
  | .w .w1 | .w .w2 => ws = []
  | .w .w3 | .w .w4 => ∃ v2, ws = [.wr .ctlr1 (v2 ||| 0x0100#32)]
  | .w .w5 => ∃ v2, ws = addressWrites a7 0#1 v2
  | .w .w6t | .w .w6d | .w .w7 | .w .w8 =>
    ∃ v2, ws = addressWrites a7 0#1 v2 ++ (bytes.take i).map fun b => .wr .datar (b.setWidth 32)
  | .w .w9 | .idle => ∃ v2 v8, ws = writeShape a7 bytes v2 v8
  | _ => False

theorem wroteSoFar_phase {a7 : BitVec 7} {bytes : List Byte} {i : Nat} {ws : List Event} {q : Phase}
    (h : WroteSoFar a7 bytes i ws q) (hq : q ≠ .idle) : ∃ p, q = .w p := by
  cases q with
  | idle => exact absurd rfl hq
  | s1 | o | c1 | r => exact h.elim
  | w p => exact ⟨p, rfl⟩

/-- A choice between two phases at which the same has been written. -/
theorem wroteSoFar_ite {a7 : BitVec 7} {bytes : List Byte} {i : Nat} {ws : List Event} {b : Prop} [Decidable b]
    {p q : Phase} (hp : WroteSoFar a7 bytes i ws p) (hq : WroteSoFar a7 bytes i ws q) :
    WroteSoFar a7 bytes i ws (if b then p else q) := by
  split <;> assumption

/-- Where a WRITE stands before a data byte, or after the last. -/
theorem wroteSoFar_beforeByte {a7 : BitVec 7} {bytes : List Byte} {i : Nat} {ws : List Event} (v2 : Word) (b : Prop)
    [Decidable b] (h : ws = addressWrites a7 0#1 v2 ++ (bytes.take i).map fun b => .wr .datar (b.setWidth 32)) :
    WroteSoFar a7 bytes i ws (if b then .w .w6t else .w .w7) :=
  wroteSoFar_ite ⟨v2, h⟩ ⟨v2, h⟩

/-- R155: each phase of a WRITE of its own adds the write its place in the shape asks for. -/
theorem writePhase_wrote {p : WritePhase} {u v : State} {ws : List Event} (hp : u.pc = .w p)
    (hi : u.writeIndexOk p) (hth : u.thenRead = false) (hw : WroteSoFar u.a7 u.wdata u.i ws (.w p))
    (h : writePhase p u = .next v) : WroteSoFar u.a7 u.wdata v.i (ws ++ writesIn (phaseEvents u)) v.pc := by
  cases p <;>
    simp only [writePhase, poll_goto_at hp, poll_startWriteData_at hp, phaseEvents, hp, writesIn_snapEvents,
      writesIn_rmwEvents, writesIn_read, List.append_nil] at h ⊢
  case w6d =>
    obtain ⟨v2, rfl⟩ := hw
    split at h <;> cases h
    rename_i b hb
    rw [hb]
    refine wroteSoFar_beforeByte v2 _ ?_
    change _ = _ ++ (u.wdata.take (u.i + 1)).map _
    rw [List.take_add_one, show u.wdata[u.i]? = some b from hb, List.map_append, List.append_assoc]
    rfl
  all_goals cases h
  case w1 | w3 | w6t | w7 => exact wroteSoFar_ite hw hw
  case w2 =>
    obtain rfl := hw
    exact ⟨_, rfl⟩
  case w4 =>
    obtain ⟨v2, rfl⟩ := hw
    exact ⟨v2, rfl⟩
  case w5 =>
    obtain ⟨v2, rfl⟩ := hw
    split
    · exact wroteSoFar_beforeByte v2 _ (List.append_nil _).symm
    · exact ⟨v2, rfl⟩
  case w8 =>
    obtain ⟨v2, rfl⟩ := hw
    have hall : u.wdata.take u.i = u.wdata := List.take_of_length_le hi.ge
    rw [hall]
    exact ⟨v2, _, rfl⟩
  case w9 =>
    rw [endWrite_eq_leaveCheck, leaveCheck_write (s := u.afterCheck) hth]
    exact hw

/-- A WRITE with these registers latched, and its writes since it stood at W1. -/
def WriteRun (x : Latched) (u : State) (ev : List Event) : Prop :=
  u.RunsOn x ∧ WroteSoFar x.a7 x.wdata u.i (writesIn ev) u.pc

theorem writeRun_step {x : Latched} (hx : x.op = .write) (u v : State) (ev : List Event) (h : WriteRun x u ev)
    (hp : u.pc ≠ .idle) (hs : step u = .next v) : WriteRun x v (ev ++ stepEvents u) := by
  obtain ⟨hrun, hw⟩ := h
  obtain ⟨hv, hphase, hev⟩ := runsOn_step hrun hp hs
  obtain rfl := hrun.latched
  obtain ⟨p, hpc⟩ := wroteSoFar_phase hw hp
  obtain ⟨⟨-, hcommand⟩, hi⟩ := (phaseOk_w hpc).mp hrun.inv.1
  have hop : u.op = .write := hx
  have hth : u.thenRead = false := by simpa [hop] using hcommand
  refine ⟨hv, ?_⟩
  rw [hpc] at hw
  simp only [phaseStep, hpc] at hphase
  rw [hev, writesIn_append]
  exact writePhase_wrote hpc hi hth hw hphase

/-- Settles O32: every step of the WRITE keeps `WroteSoFar`, which at IDLE is the claim. -/
theorem completedWriteShape : Obligations.CompletedWriteShape := by
  intro a k s t hinv hr hp hcurrent hbusy hrun ht
  have hop : s.op = .write := by rw [← current_opcode, hcurrent]; rfl
  have ha : s.a7 = a := by simpa [State.current, hop] using hcurrent
  have hstart : WriteRun s.latched s [] := ⟨⟨hinv, hr, rfl⟩, by rw [hp]; rfl⟩
  obtain ⟨ev, htrace, -, hw⟩ := run_to_end (writeRun_step hop) hstart hbusy hrun
  rw [ht, List.nil_append] at hw
  obtain ⟨v2, v8, hw⟩ := hw
  exact ⟨ev, v2, v8, htrace, ha ▸ hw⟩

/-! ### The accesses of a READ (R163, R164) -/

/-- What a READ from `a7` has written where it stands at a phase. -/
def WroteForRead (a7 : BitVec 7) (ws : List Event) : Phase → Prop
  | .r .r1 | .r .r2 => ws = []
  | .r .r3 | .r .r4 => ∃ v2, ws = [.wr .ctlr1 (v2 ||| 0x0100#32)]
  | .r .r5 | .r .r6r | .r .r6d | .r .r7 => ∃ v2, ws = addressWrites a7 1#1 v2
  | .r .r8 | .idle => ∃ v2 v7, ws = readShape a7 v2 v7
  | _ => False

theorem wroteForRead_phase {a7 : BitVec 7} {ws : List Event} {q : Phase} (h : WroteForRead a7 ws q) (hq : q ≠ .idle) :
    ∃ p, q = .r p := by
  cases q with
  | idle => exact absurd rfl hq
  | s1 | o | c1 | w => exact h.elim
  | r p => exact ⟨p, rfl⟩

/-- The reads of DATAR `ds` are `n` in number, and their low bytes are the first `n` of RBUF, in order. -/
def FilledBy (n : Nat) (rbuf : List Byte) (ds : List Event) : Prop :=
  ∃ vs : List Word, ds = vs.map (fun v => .rd .datar v) ∧ vs.length = n ∧ rbuf.take n = vs.map fun v => v.setWidth 8

/-- What a READ of `m` bytes has read where it stands at a phase with index `i`. -/
def FilledSoFar (m i : Nat) (rbuf : List Byte) (ds : List Event) : Phase → Prop
  | .r .r6r | .r .r6d | .r .r7 | .r .r8 => FilledBy i rbuf ds
  | .idle => FilledBy m rbuf ds
  | _ => FilledBy 0 rbuf ds

theorem filledBy_zero (rbuf : List Byte) : FilledBy 0 rbuf [] := ⟨[], rfl, rfl, rfl⟩

/-- R164: the next byte goes to the next slot. -/
theorem filledBy_succ {n : Nat} {rbuf : List Byte} {ds : List Event} (h : FilledBy n rbuf ds) (hn : n < rbuf.length)
    (v : Word) : FilledBy (n + 1) (rbuf.set n (v.setWidth 8)) (ds ++ [.rd .datar v]) := by
  obtain ⟨vs, rfl, hlen, htake⟩ := h
  refine ⟨vs ++ [v], by simp, by simp [hlen], ?_⟩
  rw [take_set_succ hn, htake, List.map_append]
  rfl

/-- A choice between two phases at which the same has been read. -/
theorem filledSoFar_ite {m i : Nat} {rbuf : List Byte} {ds : List Event} {b : Prop} [Decidable b] {p q : Phase}
    (hp : FilledSoFar m i rbuf ds p) (hq : FilledSoFar m i rbuf ds q) :
    FilledSoFar m i rbuf ds (if b then p else q) := by
  split <;> assumption

/-- A choice between two phases at which the same has been written. -/
theorem wroteForRead_ite {a7 : BitVec 7} {ws : List Event} {b : Prop} [Decidable b] {p q : Phase}
    (hp : WroteForRead a7 ws p) (hq : WroteForRead a7 ws q) : WroteForRead a7 ws (if b then p else q) := by
  split <;> assumption

/-- R160: each phase of a READ adds the write its place in the shape asks for. -/
theorem readPhase_wrote {p : ReadPhase} {u v : State} {ws : List Event} (hp : u.pc = .r p)
    (hw : WroteForRead u.a7 ws (.r p)) (h : readPhase p u = .next v) :
    WroteForRead u.a7 (ws ++ writesIn (phaseEvents u)) v.pc := by
  cases p <;>
    simp only [readPhase, poll_goto_at hp, poll_startReadData_at hp, phaseEvents, hp, writesIn_snapEvents,
      writesIn_rmwEvents, writesIn_read, writesIn_slot, List.append_nil] at h ⊢
  case r6d =>
    split at h <;> cases h
    exact wroteForRead_ite hw hw
  all_goals cases h
  case r1 | r3 | r6r => exact wroteForRead_ite hw hw
  case r2 =>
    obtain rfl := hw
    exact ⟨_, rfl⟩
  case r4 =>
    obtain ⟨v2, rfl⟩ := hw
    exact ⟨v2, rfl⟩
  case r5 =>
    split
    · exact wroteForRead_ite hw hw
    · exact hw
  case r7 =>
    obtain ⟨v2, rfl⟩ := hw
    exact ⟨v2, _, rfl⟩
  case r8 => exact hw

/-- R160, R164: R6D reads a byte of DATAR into the slot of its index, and no other phase of a READ does either. -/
theorem readPhase_filled {p : ReadPhase} {u v : State} {ds : List Event} (hp : u.pc = .r p) (hi : u.readIndexOk p)
    (hd : FilledSoFar u.m u.i u.rbuf ds (.r p)) (h : readPhase p u = .next v) :
    FilledSoFar u.m v.i v.rbuf (ds ++ dataReadsIn (phaseEvents u)) v.pc := by
  cases p <;>
    simp only [readPhase, poll_goto_at hp, poll_startReadData_at hp, phaseEvents, hp, dataReadsIn_snapEvents,
      dataReadsIn_rmwEvents_ctlr1, dataReadsIn_write, dataReadsIn_star1, dataReadsIn_slot, List.append_nil] at h ⊢
  case r6d =>
    split at h <;> cases h
    rename_i hlt
    have hnext := filledBy_succ hd hlt (u.answer .datar)
    exact filledSoFar_ite hnext hnext
  all_goals cases h
  case r1 | r3 | r6r => exact filledSoFar_ite hd hd
  case r5 =>
    split
    · exact filledSoFar_ite hd hd
    · exact hd
  case r8 =>
    have hi : u.i = u.m := hi
    exact hi ▸ hd
  all_goals exact hd

/-- A READ with these registers latched, and its accesses since it stood at R1. -/
structure ReadRun (x : Latched) (u : State) (ev : List Event) : Prop where
  runs   : u.RunsOn x
  length : u.rbuf.length = x.m
  wrote  : WroteForRead x.a7 (writesIn ev) u.pc
  filled : FilledSoFar x.m u.i u.rbuf (dataReadsIn ev) u.pc

/-- R52: RBUF keeps its length in every running phase. -/
theorem phaseStep_rbuf_length {s t : State} (h : phaseStep s = .next t) : t.rbuf.length = s.rbuf.length := by
  rcases phaseStep_rbuf h with hb | ⟨-, -, rfl⟩
  · rw [hb]
  · rw [takeByte_eq, List.length_set]

theorem readRun_step {x : Latched} (u v : State) (ev : List Event) (h : ReadRun x u ev) (hp : u.pc ≠ .idle)
    (hs : step u = .next v) : ReadRun x v (ev ++ stepEvents u) := by
  obtain ⟨hrun, hlen, hw, hd⟩ := h
  obtain ⟨hv, hphase, hev⟩ := runsOn_step hrun hp hs
  obtain rfl := hrun.latched
  obtain ⟨p, hpc⟩ := wroteForRead_phase hw hp
  obtain ⟨-, hi⟩ := (phaseOk_r hpc).mp hrun.inv.1
  have hlen' := (phaseStep_rbuf_length hphase).trans hlen
  rw [hpc] at hw hd
  simp only [phaseStep, hpc] at hphase
  refine ⟨hv, hlen', ?_, ?_⟩
  · rw [hev, writesIn_append]
    exact readPhase_wrote hpc hw hphase
  · rw [hev, dataReadsIn_append]
    exact readPhase_filled hpc hi hd hphase

/-- Settles O33: every step of the READ keeps `WroteForRead` and `FilledSoFar`, which at IDLE are the claim. -/
theorem completedReadShape : Obligations.CompletedReadShape := by
  intro a k s t hinv hr hp hcurrent hbusy hrun ht
  have hop : s.op = .read := by rw [← current_opcode, hcurrent]; rfl
  have ha : s.a7 = a := by simpa [State.current, hop] using hcurrent
  obtain ⟨⟨-, -, hm, -⟩, -⟩ := (phaseOk_r hp).mp hinv.1
  have hstart : ReadRun s.latched s [] :=
    ⟨⟨hinv, hr, rfl⟩, hm.symm, by rw [hp]; rfl, by rw [hp]; exact filledBy_zero s.rbuf⟩
  obtain ⟨ev, htrace, -, hlen, hw, hd⟩ := run_to_end readRun_step hstart hbusy hrun
  rw [ht, List.nil_append] at hw hd
  obtain ⟨v2, v7, hw⟩ := hw
  obtain ⟨vs, hreads, hvs, hbytes⟩ := hd
  rw [← hlen, List.take_length] at hbytes
  exact ⟨ev, v2, v7, vs, htrace, ha ▸ hw, hreads, hvs.trans hm, hbytes⟩

end Sys2Proof.Machine
